-- ==== Sys2Proof/Word.lean ====
section
/-! DEFINITION. The word types of the core (00_scope.md R8). -/

namespace Sys2Proof

/-- An unsigned 8-bit value, `u8` of R8: data registers, memory bytes, opcode bytes. -/
abbrev Byte := BitVec 8

/-- An unsigned 16-bit value, `u16` of R8: SP, pc, register pairs, addresses. -/
abbrev Word := BitVec 16

end Sys2Proof
end

