-- ==== Sys2Proof/Config.lean ====
section
/-! DEFINITION. The three parameters of the core (00_scope.md R7), at the spec's defaults.
`State.resetWith` and `stepWith` take any other value of them. -/

namespace Sys2Proof

/-- `RESET_PC` (R341): where the first step after reset fetches.
DESIGN CHOICE, log entry 2: the parameter is OPEN; this is the default the spec gives it (D6). -/
def Config.resetPc : Word := 0x0000

/-- What an address that no memory cell lists reads as, so the default `MEM0` (R40) is this byte everywhere.
DESIGN CHOICE, log entry 1: `MEM0` is a launch input (D7) and the spec gives it no contents. -/
def Config.unlistedByte : Byte := 0x00

/-- `ADMITTED(prefixed, op)` (R83): whether the core accepts this row of the opcode table.
DESIGN CHOICE, log entry 3: the parameter is OPEN; true for every pair is the default of R83 (D2). -/
def Config.admitted (_prefixed : Bool) (_op : Byte) : Bool := true

end Sys2Proof
end

