-- ==== Sys2Proof/Syntax.lean ====
section
/-! DEFINITION. The instructions of the core: one constructor per row of spec/opcode_table.json, and their operands. -/

namespace Sys2Proof

/-- The seven 8-bit data registers (10_state.md R20). -/
inductive Reg8 where
  | a | b | c | d | e | h | l
deriving DecidableEq, Repr

/-- A byte target: one of the closed set of nine of 20_memory.md R56. -/
inductive ByteTarget where
  /-- One of the seven data registers. -/
  | reg (r : Reg8)
  /-- `(HL)`: the byte at the address in the pair HL. -/
  | memHl
  /-- `d8`: the constant read from the byte after the opcode (log entry 6: decoding has already read it). -/
  | imm (d8 : Byte)
deriving DecidableEq, Repr

/-- A word target (20_memory.md R61). -/
inductive WordTarget where
  | bc | de | hl | sp
deriving DecidableEq, Repr

/-- A condition code (45_jump.md R270). `always` is the code of the unconditional forms; no condition field holds it. -/
inductive Cond where
  | notZero | zero | notCarry | carry | always
deriving DecidableEq, Repr

/-- A decoded instruction. One constructor per row of spec/opcode_table.json, in the table's order.
Suffixes: `R` a register operand, `Mem` the byte at `(HL)`, `D8` an immediate byte, `E8` a signed displacement byte,
`A16` an absolute address, `Rr` a word target, `Cc` a condition, `B` a bit index.
The bit index is a `u8`, as `BitIndex::build` takes it (40_alu_primitives.md R139; log entry 7). -/
inductive Instr where
  | addAR (r : Reg8)
  | addAMem
  | addAD8 (d8 : Byte)
  | adcAR (r : Reg8)
  | adcAMem
  | adcAD8 (d8 : Byte)
  | subAR (r : Reg8)
  | subAMem
  | subAD8 (d8 : Byte)
  | sbcAR (r : Reg8)
  | sbcAMem
  | sbcAD8 (d8 : Byte)
  | andAR (r : Reg8)
  | andAMem
  | andAD8 (d8 : Byte)
  | xorAR (r : Reg8)
  | xorAMem
  | xorAD8 (d8 : Byte)
  | orAR (r : Reg8)
  | orAMem
  | orAD8 (d8 : Byte)
  | cpAR (r : Reg8)
  | cpAMem
  | cpAD8 (d8 : Byte)
  | incR (r : Reg8)
  | incMem
  | decR (r : Reg8)
  | decMem
  | cpl
  | ccf
  | scf
  | addHlRr (p : WordTarget)
  | addSpE8 (e8 : Byte)
  | incRr (p : WordTarget)
  | decRr (p : WordTarget)
  | rlca
  | rrca
  | rla
  | rra
  | rlcR (r : Reg8)
  | rlcMem
  | rrcR (r : Reg8)
  | rrcMem
  | rlR (r : Reg8)
  | rlMem
  | rrR (r : Reg8)
  | rrMem
  | slaR (r : Reg8)
  | slaMem
  | sraR (r : Reg8)
  | sraMem
  | swapR (r : Reg8)
  | swapMem
  | srlR (r : Reg8)
  | srlMem
  | bitBR (b : Byte) (r : Reg8)
  | bitBMem (b : Byte)
  | resBR (b : Byte) (r : Reg8)
  | resBMem (b : Byte)
  | setBR (b : Byte) (r : Reg8)
  | setBMem (b : Byte)
  | jpA16 (a16 : Word)
  | jpCcA16 (cc : Cond) (a16 : Word)
  | jrE8 (e8 : Byte)
  | jrCcE8 (cc : Cond) (e8 : Byte)
  | jpHl
deriving DecidableEq, Repr

end Sys2Proof
end

