-- ==== Sys2Proof/WellFormed.lean ====
section
/-! DEFINITION. Which instructions an encoding of the core can hold. -/

namespace Sys2Proof

/-- A valid bit index: 0 to 7 (40_alu_primitives.md R139); decoding yields no other (30_encoding.md R89). -/
def bitIndexOk (b : Byte) : Bool := decide (b.toNat ≤ 7)

/-- A condition that a two-bit condition field can hold: `Always` has no field value (45_jump.md R270). -/
def condOk : Cond → Bool
  | .notZero => true
  | .zero => true
  | .notCarry => true
  | .carry => true
  | .always => false

/-- The instruction is one that some encoding holds. Every operand of the other constructors has exactly the values
of its field, so only a bit index and a condition are checked. -/
def Instr.wellFormed : Instr → Bool
  | .bitBR b _ => bitIndexOk b
  | .bitBMem b => bitIndexOk b
  | .resBR b _ => bitIndexOk b
  | .resBMem b => bitIndexOk b
  | .setBR b _ => bitIndexOk b
  | .setBMem b => bitIndexOk b
  | .jpCcA16 cc _ => condOk cc
  | .jrCcE8 cc _ => condOk cc
  | .addAR _ => true
  | .addAMem => true
  | .addAD8 _ => true
  | .adcAR _ => true
  | .adcAMem => true
  | .adcAD8 _ => true
  | .subAR _ => true
  | .subAMem => true
  | .subAD8 _ => true
  | .sbcAR _ => true
  | .sbcAMem => true
  | .sbcAD8 _ => true
  | .andAR _ => true
  | .andAMem => true
  | .andAD8 _ => true
  | .xorAR _ => true
  | .xorAMem => true
  | .xorAD8 _ => true
  | .orAR _ => true
  | .orAMem => true
  | .orAD8 _ => true
  | .cpAR _ => true
  | .cpAMem => true
  | .cpAD8 _ => true
  | .incR _ => true
  | .incMem => true
  | .decR _ => true
  | .decMem => true
  | .cpl => true
  | .ccf => true
  | .scf => true
  | .addHlRr _ => true
  | .addSpE8 _ => true
  | .incRr _ => true
  | .decRr _ => true
  | .rlca => true
  | .rrca => true
  | .rla => true
  | .rra => true
  | .rlcR _ => true
  | .rlcMem => true
  | .rrcR _ => true
  | .rrcMem => true
  | .rlR _ => true
  | .rlMem => true
  | .rrR _ => true
  | .rrMem => true
  | .slaR _ => true
  | .slaMem => true
  | .sraR _ => true
  | .sraMem => true
  | .swapR _ => true
  | .swapMem => true
  | .srlR _ => true
  | .srlMem => true
  | .jpA16 _ => true
  | .jrE8 _ => true
  | .jpHl => true

end Sys2Proof
end

