-- ==== Sys2Proof/Decode.lean ====
section
/-! DEFINITION. Decoding and encoding (30_encoding.md): the field codings of R88, the opcode table as rows with a mask and a
pattern (R82, R87, R93), the decoder, and the encoder written from the same field codings. -/

namespace Sys2Proof

/-! ## Bytes and 16-bit values -/

/-- `hi ++ lo` of 00_scope.md R8: the value `hi * 256 + lo`. -/
def wordOfBytes (hi lo : Byte) : Word := hi ++ lo

/-- `v[15:8]` of R8. -/
def hiByte (v : Word) : Byte := v.extractLsb' 8 8

/-- `v[7:0]` of R8. -/
def loByte (v : Word) : Byte := v.extractLsb' 0 8

/-! ## Field codings (R88) -/

/-- The lead byte of the extended opcode space (R80). -/
def prefixByte : Byte := 0xCB

/-- The byte register of a three-bit `r` code (R88); code 6 is `(HL)`, which has rows of its own. -/
def reg8OfCode (code : BitVec 3) : Option Reg8 :=
  match code.toNat with
  | 0 => some .b
  | 1 => some .c
  | 2 => some .d
  | 3 => some .e
  | 4 => some .h
  | 5 => some .l
  | 7 => some .a
  | _ => none

/-- The three-bit `r` code of a byte register (R88). -/
def reg8Code : Reg8 → BitVec 3
  | .b => 0
  | .c => 1
  | .d => 2
  | .e => 3
  | .h => 4
  | .l => 5
  | .a => 7

/-- The three-bit `r` code of `(HL)` (R88). -/
def memHlCode : BitVec 3 := 6

/-- The word target of a two-bit `p` code (R88). -/
def wordTargetOfCode (code : BitVec 2) : WordTarget :=
  match code.toNat with
  | 0 => .bc
  | 1 => .de
  | 2 => .hl
  | _ => .sp

/-- The two-bit `p` code of a word target (R88). -/
def wordTargetCode : WordTarget → BitVec 2
  | .bc => 0
  | .de => 1
  | .hl => 2
  | .sp => 3

/-- The condition of a two-bit `c` code (R88). -/
def condOfCode (code : BitVec 2) : Cond :=
  match code.toNat with
  | 0 => .notZero
  | 1 => .zero
  | 2 => .notCarry
  | _ => .carry

/-- The two-bit `c` code of a condition (R88). `Always` has none: an instruction that would need it is not well formed, and
`encode` gives it no words. -/
def condCode : Cond → BitVec 2
  | .notZero => 0
  | .zero => 1
  | .notCarry => 2
  | .carry => 3
  | .always => 0

/-- `op[2:0]`: the `r` field of the ALU rows and of the extended space (R87, R93). -/
def fieldLow3 (op : Byte) : BitVec 3 := op.extractLsb' 0 3

/-- `op[5:3]`: the `r` field of INC and DEC, the `o` field and the bit index (R87, R89). -/
def fieldMid3 (op : Byte) : BitVec 3 := op.extractLsb' 3 3

/-- `op[5:4]`: the `p` field (R87). -/
def fieldPair (op : Byte) : BitVec 2 := op.extractLsb' 4 2

/-- `op[4:3]`: the `c` field (R87). -/
def fieldCond (op : Byte) : BitVec 2 := op.extractLsb' 3 2

/-- The bit index of BIT, RES and SET: `op[5:3]` as a value 0 to 7 (R89). -/
def bitIndexOf (op : Byte) : Byte := (fieldMid3 op).setWidth 8

/-! ## The opcode table -/

/-- One row of spec/opcode_table.json. A row matches an opcode byte `op` when `op &&& mask = pattern` and `build` makes an
instruction of it; `build` answers `none` exactly on the codes that the row excludes (`r = 6`). -/
structure OpcodeRow where
  /-- The row's mnemonic in spec/opcode_table.json. -/
  mnemonic : String
  mask     : Byte
  pattern  : Byte
  /-- The instruction, from the opcode byte and the two bytes after it. -/
  build    : Byte → Byte → Byte → Option Instr

/-- The row reads this opcode byte, with these two bytes after it. -/
def OpcodeRow.read (row : OpcodeRow) (op imm0 imm1 : Byte) : Option Instr :=
  if op &&& row.mask = row.pattern then row.build op imm0 imm1 else none

/-- The row matches this opcode byte, whatever follows it. -/
def OpcodeRow.hits (row : OpcodeRow) (op : Byte) : Bool := (row.read op 0 0).isSome

/-- `10 ooo rrr` and `11 ooo 110`: the eight ALU operations on A (R87). -/
def aluRows : List OpcodeRow := [
  ⟨"ADD_A_r", 0xF8, 0x80, fun op _ _ => (reg8OfCode (fieldLow3 op)).map Instr.addAR⟩,
  ⟨"ADD_A__HL", 0xFF, 0x86, fun _ _ _ => some .addAMem⟩,
  ⟨"ADD_A_d8", 0xFF, 0xC6, fun _ d8 _ => some (.addAD8 d8)⟩,
  ⟨"ADC_A_r", 0xF8, 0x88, fun op _ _ => (reg8OfCode (fieldLow3 op)).map Instr.adcAR⟩,
  ⟨"ADC_A__HL", 0xFF, 0x8E, fun _ _ _ => some .adcAMem⟩,
  ⟨"ADC_A_d8", 0xFF, 0xCE, fun _ d8 _ => some (.adcAD8 d8)⟩,
  ⟨"SUB_A_r", 0xF8, 0x90, fun op _ _ => (reg8OfCode (fieldLow3 op)).map Instr.subAR⟩,
  ⟨"SUB_A__HL", 0xFF, 0x96, fun _ _ _ => some .subAMem⟩,
  ⟨"SUB_A_d8", 0xFF, 0xD6, fun _ d8 _ => some (.subAD8 d8)⟩,
  ⟨"SBC_A_r", 0xF8, 0x98, fun op _ _ => (reg8OfCode (fieldLow3 op)).map Instr.sbcAR⟩,
  ⟨"SBC_A__HL", 0xFF, 0x9E, fun _ _ _ => some .sbcAMem⟩,
  ⟨"SBC_A_d8", 0xFF, 0xDE, fun _ d8 _ => some (.sbcAD8 d8)⟩,
  ⟨"AND_A_r", 0xF8, 0xA0, fun op _ _ => (reg8OfCode (fieldLow3 op)).map Instr.andAR⟩,
  ⟨"AND_A__HL", 0xFF, 0xA6, fun _ _ _ => some .andAMem⟩,
  ⟨"AND_A_d8", 0xFF, 0xE6, fun _ d8 _ => some (.andAD8 d8)⟩,
  ⟨"XOR_A_r", 0xF8, 0xA8, fun op _ _ => (reg8OfCode (fieldLow3 op)).map Instr.xorAR⟩,
  ⟨"XOR_A__HL", 0xFF, 0xAE, fun _ _ _ => some .xorAMem⟩,
  ⟨"XOR_A_d8", 0xFF, 0xEE, fun _ d8 _ => some (.xorAD8 d8)⟩,
  ⟨"OR_A_r", 0xF8, 0xB0, fun op _ _ => (reg8OfCode (fieldLow3 op)).map Instr.orAR⟩,
  ⟨"OR_A__HL", 0xFF, 0xB6, fun _ _ _ => some .orAMem⟩,
  ⟨"OR_A_d8", 0xFF, 0xF6, fun _ d8 _ => some (.orAD8 d8)⟩,
  ⟨"CP_A_r", 0xF8, 0xB8, fun op _ _ => (reg8OfCode (fieldLow3 op)).map Instr.cpAR⟩,
  ⟨"CP_A__HL", 0xFF, 0xBE, fun _ _ _ => some .cpAMem⟩,
  ⟨"CP_A_d8", 0xFF, 0xFE, fun _ d8 _ => some (.cpAD8 d8)⟩]

/-- `00 rrr 10x`, CPL, CCF and SCF (R87). -/
def incDecFlagRows : List OpcodeRow := [
  ⟨"INC_r", 0xC7, 0x04, fun op _ _ => (reg8OfCode (fieldMid3 op)).map Instr.incR⟩,
  ⟨"INC__HL", 0xFF, 0x34, fun _ _ _ => some .incMem⟩,
  ⟨"DEC_r", 0xC7, 0x05, fun op _ _ => (reg8OfCode (fieldMid3 op)).map Instr.decR⟩,
  ⟨"DEC__HL", 0xFF, 0x35, fun _ _ _ => some .decMem⟩,
  ⟨"CPL", 0xFF, 0x2F, fun _ _ _ => some .cpl⟩,
  ⟨"CCF", 0xFF, 0x3F, fun _ _ _ => some .ccf⟩,
  ⟨"SCF", 0xFF, 0x37, fun _ _ _ => some .scf⟩]

/-- 16-bit arithmetic (R87). -/
def alu16Rows : List OpcodeRow := [
  ⟨"ADD_HL_rr", 0xCF, 0x09, fun op _ _ => some (.addHlRr (wordTargetOfCode (fieldPair op)))⟩,
  ⟨"ADD_SP_e8", 0xFF, 0xE8, fun _ e8 _ => some (.addSpE8 e8)⟩,
  ⟨"INC_rr", 0xCF, 0x03, fun op _ _ => some (.incRr (wordTargetOfCode (fieldPair op)))⟩,
  ⟨"DEC_rr", 0xCF, 0x0B, fun op _ _ => some (.decRr (wordTargetOfCode (fieldPair op)))⟩]

/-- `000 kk 111`: the single-byte rotates of A (R87). -/
def rotateARows : List OpcodeRow := [
  ⟨"RLCA", 0xFF, 0x07, fun _ _ _ => some .rlca⟩,
  ⟨"RRCA", 0xFF, 0x0F, fun _ _ _ => some .rrca⟩,
  ⟨"RLA", 0xFF, 0x17, fun _ _ _ => some .rla⟩,
  ⟨"RRA", 0xFF, 0x1F, fun _ _ _ => some .rra⟩]

/-- The jump family (R87); `a16` has its low byte first (R90). -/
def jumpRows : List OpcodeRow := [
  ⟨"JP_a16", 0xFF, 0xC3, fun _ lo hi => some (.jpA16 (wordOfBytes hi lo))⟩,
  ⟨"JP_cc_a16", 0xE7, 0xC2, fun op lo hi => some (.jpCcA16 (condOfCode (fieldCond op)) (wordOfBytes hi lo))⟩,
  ⟨"JR_e8", 0xFF, 0x18, fun _ e8 _ => some (.jrE8 e8)⟩,
  ⟨"JR_cc_e8", 0xE7, 0x20, fun op e8 _ => some (.jrCcE8 (condOfCode (fieldCond op)) e8)⟩,
  ⟨"JP_HL", 0xFF, 0xE9, fun _ _ _ => some .jpHl⟩]

/-- The group 00 of the extended space: rotates, shifts and swap (R93). -/
def rotateShiftRows : List OpcodeRow := [
  ⟨"RLC_r", 0xF8, 0x00, fun op _ _ => (reg8OfCode (fieldLow3 op)).map Instr.rlcR⟩,
  ⟨"RLC__HL", 0xFF, 0x06, fun _ _ _ => some .rlcMem⟩,
  ⟨"RRC_r", 0xF8, 0x08, fun op _ _ => (reg8OfCode (fieldLow3 op)).map Instr.rrcR⟩,
  ⟨"RRC__HL", 0xFF, 0x0E, fun _ _ _ => some .rrcMem⟩,
  ⟨"RL_r", 0xF8, 0x10, fun op _ _ => (reg8OfCode (fieldLow3 op)).map Instr.rlR⟩,
  ⟨"RL__HL", 0xFF, 0x16, fun _ _ _ => some .rlMem⟩,
  ⟨"RR_r", 0xF8, 0x18, fun op _ _ => (reg8OfCode (fieldLow3 op)).map Instr.rrR⟩,
  ⟨"RR__HL", 0xFF, 0x1E, fun _ _ _ => some .rrMem⟩,
  ⟨"SLA_r", 0xF8, 0x20, fun op _ _ => (reg8OfCode (fieldLow3 op)).map Instr.slaR⟩,
  ⟨"SLA__HL", 0xFF, 0x26, fun _ _ _ => some .slaMem⟩,
  ⟨"SRA_r", 0xF8, 0x28, fun op _ _ => (reg8OfCode (fieldLow3 op)).map Instr.sraR⟩,
  ⟨"SRA__HL", 0xFF, 0x2E, fun _ _ _ => some .sraMem⟩,
  ⟨"SWAP_r", 0xF8, 0x30, fun op _ _ => (reg8OfCode (fieldLow3 op)).map Instr.swapR⟩,
  ⟨"SWAP__HL", 0xFF, 0x36, fun _ _ _ => some .swapMem⟩,
  ⟨"SRL_r", 0xF8, 0x38, fun op _ _ => (reg8OfCode (fieldLow3 op)).map Instr.srlR⟩,
  ⟨"SRL__HL", 0xFF, 0x3E, fun _ _ _ => some .srlMem⟩]

/-- The groups 01, 10 and 11 of the extended space: BIT, RES and SET (R93). -/
def bitRows : List OpcodeRow := [
  ⟨"BIT_b_r", 0xC0, 0x40, fun op _ _ => (reg8OfCode (fieldLow3 op)).map (Instr.bitBR (bitIndexOf op))⟩,
  ⟨"BIT_b__HL", 0xC7, 0x46, fun op _ _ => some (.bitBMem (bitIndexOf op))⟩,
  ⟨"RES_b_r", 0xC0, 0x80, fun op _ _ => (reg8OfCode (fieldLow3 op)).map (Instr.resBR (bitIndexOf op))⟩,
  ⟨"RES_b__HL", 0xC7, 0x86, fun op _ _ => some (.resBMem (bitIndexOf op))⟩,
  ⟨"SET_b_r", 0xC0, 0xC0, fun op _ _ => (reg8OfCode (fieldLow3 op)).map (Instr.setBR (bitIndexOf op))⟩,
  ⟨"SET_b__HL", 0xC7, 0xC6, fun op _ _ => some (.setBMem (bitIndexOf op))⟩]

/-- The rows without the prefix mark (R91). -/
def unprefixedRows : List OpcodeRow := aluRows ++ incDecFlagRows ++ alu16Rows ++ rotateARows ++ jumpRows

/-- The rows with the prefix mark (R93). -/
def prefixedRows : List OpcodeRow := rotateShiftRows ++ bitRows

/-- The rows with this prefix mark. -/
def rowsOf (prefixed : Bool) : List OpcodeRow := if prefixed then prefixedRows else unprefixedRows

/-! ## The decoder -/

/-- A decode failure, by name: the prefix mark and the byte that had no mapping (60_exceptions.md R300). -/
structure Unknown where
  prefixed : Bool
  op       : Byte
deriving DecidableEq, Repr

/-- `decode(op, prefixed)` of R82, with the two bytes after the opcode byte: the instruction of the row that matches, provided
that the pair is admitted; otherwise Unknown. -/
def decodeOp (admitted : Bool → Byte → Bool) (prefixed : Bool) (op imm0 imm1 : Byte) : Except Unknown Instr :=
  match (rowsOf prefixed).findSome? (fun row => row.read op imm0 imm1) with
  | some i => if admitted prefixed op then .ok i else .error ⟨prefixed, op⟩
  | none => .error ⟨prefixed, op⟩

/-- The decoder of a core with the parameter `ADMITTED` (R80, R82): from the byte at pc and the two after it. -/
def decodeWith (admitted : Bool → Byte → Bool) (b0 b1 b2 : Byte) : Except Unknown Instr :=
  if b0 = prefixByte then decodeOp admitted true b1 b2 0 else decodeOp admitted false b0 b1 b2

/-- The decoder of the default core. -/
def decode (b0 b1 b2 : Byte) : Except Unknown Instr := decodeWith Config.admitted b0 b1 b2

/-- The length in bytes of an instruction, the prefix byte counted (R84). -/
def Instr.length : Instr → Nat
  | .addAR _ => 1
  | .adcAR _ => 1
  | .subAR _ => 1
  | .sbcAR _ => 1
  | .andAR _ => 1
  | .xorAR _ => 1
  | .orAR _ => 1
  | .cpAR _ => 1
  | .addAMem => 1
  | .adcAMem => 1
  | .subAMem => 1
  | .sbcAMem => 1
  | .andAMem => 1
  | .xorAMem => 1
  | .orAMem => 1
  | .cpAMem => 1
  | .incR _ => 1
  | .incMem => 1
  | .decR _ => 1
  | .decMem => 1
  | .cpl => 1
  | .ccf => 1
  | .scf => 1
  | .addHlRr _ => 1
  | .incRr _ => 1
  | .decRr _ => 1
  | .rlca => 1
  | .rrca => 1
  | .rla => 1
  | .rra => 1
  | .jpHl => 1
  | .addAD8 _ => 2
  | .adcAD8 _ => 2
  | .subAD8 _ => 2
  | .sbcAD8 _ => 2
  | .andAD8 _ => 2
  | .xorAD8 _ => 2
  | .orAD8 _ => 2
  | .cpAD8 _ => 2
  | .addSpE8 _ => 2
  | .jrE8 _ => 2
  | .jrCcE8 _ _ => 2
  | .rlcR _ => 2
  | .rrcR _ => 2
  | .rlR _ => 2
  | .rrR _ => 2
  | .slaR _ => 2
  | .sraR _ => 2
  | .swapR _ => 2
  | .srlR _ => 2
  | .rlcMem => 2
  | .rrcMem => 2
  | .rlMem => 2
  | .rrMem => 2
  | .slaMem => 2
  | .sraMem => 2
  | .swapMem => 2
  | .srlMem => 2
  | .bitBR _ _ => 2
  | .bitBMem _ => 2
  | .resBR _ _ => 2
  | .resBMem _ => 2
  | .setBR _ _ => 2
  | .setBMem _ => 2
  | .jpA16 _ => 3
  | .jpCcA16 _ _ => 3

/-- Why a list of bytes does not begin with an instruction. -/
inductive DecodeError where
  /-- The opcode byte has no mapping (R92). -/
  | unknown (u : Unknown)
  /-- The list ends inside the instruction. -/
  | truncated
deriving DecidableEq, Repr

/-- The first instruction of a list of bytes, and the bytes after it. -/
def decodeBytes : List Byte → Except DecodeError (Instr × List Byte)
  | [] => .error .truncated
  | b0 :: rest =>
    match decode b0 (rest.getD 0 0) (rest.getD 1 0) with
    | .error u => .error (.unknown u)
    | .ok i =>
      if i.length ≤ rest.length + 1 then .ok (i, rest.drop (i.length - 1)) else .error .truncated

/-! ## The encoder -/

/-- An opcode byte of a two-bit group, a middle field and a low field: `gg mmm lll` (R86, R87). -/
def opByte (group : BitVec 2) (mid low : BitVec 3) : Byte := group ++ mid ++ low

/-- An opcode byte of a two-bit group, a pair field and a low field: `gg pp llll` (R87). -/
def opBytePair (group pair : BitVec 2) (low : BitVec 4) : Byte := group ++ pair ++ low

/-- An opcode byte of a three-bit group, a condition field and a low field: `ggg cc lll` (R87). -/
def opByteCond (group : BitVec 3) (cond : BitVec 2) (low : BitVec 3) : Byte := group ++ cond ++ low

/-- The three bits of a bit index (R89). -/
def bitIndexCode (b : Byte) : BitVec 3 := b.setWidth 3

/-- The bytes of an instruction, from the patterns of R87 and R93 and the codes of R88. -/
def encodeWords : Instr → List Byte
  | .addAR r => [opByte 0b10 0 (reg8Code r)]
  | .addAMem => [opByte 0b10 0 memHlCode]
  | .addAD8 d8 => [opByte 0b11 0 0b110, d8]
  | .adcAR r => [opByte 0b10 1 (reg8Code r)]
  | .adcAMem => [opByte 0b10 1 memHlCode]
  | .adcAD8 d8 => [opByte 0b11 1 0b110, d8]
  | .subAR r => [opByte 0b10 2 (reg8Code r)]
  | .subAMem => [opByte 0b10 2 memHlCode]
  | .subAD8 d8 => [opByte 0b11 2 0b110, d8]
  | .sbcAR r => [opByte 0b10 3 (reg8Code r)]
  | .sbcAMem => [opByte 0b10 3 memHlCode]
  | .sbcAD8 d8 => [opByte 0b11 3 0b110, d8]
  | .andAR r => [opByte 0b10 4 (reg8Code r)]
  | .andAMem => [opByte 0b10 4 memHlCode]
  | .andAD8 d8 => [opByte 0b11 4 0b110, d8]
  | .xorAR r => [opByte 0b10 5 (reg8Code r)]
  | .xorAMem => [opByte 0b10 5 memHlCode]
  | .xorAD8 d8 => [opByte 0b11 5 0b110, d8]
  | .orAR r => [opByte 0b10 6 (reg8Code r)]
  | .orAMem => [opByte 0b10 6 memHlCode]
  | .orAD8 d8 => [opByte 0b11 6 0b110, d8]
  | .cpAR r => [opByte 0b10 7 (reg8Code r)]
  | .cpAMem => [opByte 0b10 7 memHlCode]
  | .cpAD8 d8 => [opByte 0b11 7 0b110, d8]
  | .incR r => [opByte 0b00 (reg8Code r) 0b100]
  | .incMem => [opByte 0b00 memHlCode 0b100]
  | .decR r => [opByte 0b00 (reg8Code r) 0b101]
  | .decMem => [opByte 0b00 memHlCode 0b101]
  | .cpl => [0b00101111]
  | .ccf => [0b00111111]
  | .scf => [0b00110111]
  | .addHlRr p => [opBytePair 0b00 (wordTargetCode p) 0b1001]
  | .addSpE8 e8 => [0b11101000, e8]
  | .incRr p => [opBytePair 0b00 (wordTargetCode p) 0b0011]
  | .decRr p => [opBytePair 0b00 (wordTargetCode p) 0b1011]
  | .rlca => [opByteCond 0b000 0b00 0b111]
  | .rrca => [opByteCond 0b000 0b01 0b111]
  | .rla => [opByteCond 0b000 0b10 0b111]
  | .rra => [opByteCond 0b000 0b11 0b111]
  | .rlcR r => [prefixByte, opByte 0b00 0 (reg8Code r)]
  | .rlcMem => [prefixByte, opByte 0b00 0 memHlCode]
  | .rrcR r => [prefixByte, opByte 0b00 1 (reg8Code r)]
  | .rrcMem => [prefixByte, opByte 0b00 1 memHlCode]
  | .rlR r => [prefixByte, opByte 0b00 2 (reg8Code r)]
  | .rlMem => [prefixByte, opByte 0b00 2 memHlCode]
  | .rrR r => [prefixByte, opByte 0b00 3 (reg8Code r)]
  | .rrMem => [prefixByte, opByte 0b00 3 memHlCode]
  | .slaR r => [prefixByte, opByte 0b00 4 (reg8Code r)]
  | .slaMem => [prefixByte, opByte 0b00 4 memHlCode]
  | .sraR r => [prefixByte, opByte 0b00 5 (reg8Code r)]
  | .sraMem => [prefixByte, opByte 0b00 5 memHlCode]
  | .swapR r => [prefixByte, opByte 0b00 6 (reg8Code r)]
  | .swapMem => [prefixByte, opByte 0b00 6 memHlCode]
  | .srlR r => [prefixByte, opByte 0b00 7 (reg8Code r)]
  | .srlMem => [prefixByte, opByte 0b00 7 memHlCode]
  | .bitBR b r => [prefixByte, opByte 1 (bitIndexCode b) (reg8Code r)]
  | .bitBMem b => [prefixByte, opByte 1 (bitIndexCode b) memHlCode]
  | .resBR b r => [prefixByte, opByte 2 (bitIndexCode b) (reg8Code r)]
  | .resBMem b => [prefixByte, opByte 2 (bitIndexCode b) memHlCode]
  | .setBR b r => [prefixByte, opByte 3 (bitIndexCode b) (reg8Code r)]
  | .setBMem b => [prefixByte, opByte 3 (bitIndexCode b) memHlCode]
  | .jpA16 a16 => [0b11000011, loByte a16, hiByte a16]
  | .jpCcA16 cc a16 => [opByteCond 0b110 (condCode cc) 0b010, loByte a16, hiByte a16]
  | .jrE8 e8 => [0b00011000, e8]
  | .jrCcE8 cc e8 => [opByteCond 0b001 (condCode cc) 0b000, e8]
  | .jpHl => [0b11101001]

/-- The bytes of a well-formed instruction; an ill-formed one has none (log entry 8). -/
def encode (i : Instr) : List Byte := if i.wellFormed then encodeWords i else []

/-! ## The table's numbering of an instruction's bits -/

/-- The three bytes, in memory order, of an instruction whose bits are `w`, numbered as spec/opcode_table.json numbers them.
A row of up to 8 bits is its opcode byte, and the operand bytes are zero. A 16-bit row is a prefixed one and the table writes
its match as `0xCBxx`: the prefix, which is the first byte, is bits 15..8 (DEDUCED, log entry 9). Any other word has its first
byte in bits 7..0. -/
def tableBytes (nbits w : Nat) : Byte × Byte × Byte :=
  let v := w % 2 ^ nbits
  if 8 < nbits ∧ nbits ≤ 16 ∧ v / 256 = prefixByte.toNat then (prefixByte, BitVec.ofNat 8 v, 0)
  else (BitVec.ofNat 8 v, BitVec.ofNat 8 (v / 256), BitVec.ofNat 8 (v / 65536))

/-- The instruction the decoder reads from a word of the table's numbering. -/
def decodeTableWord (nbits w : Nat) : Option Instr :=
  let (b0, b1, b2) := tableBytes nbits w
  (decode b0 b1 b2).toOption

end Sys2Proof
end

