-- ==== Sys2Proof/Machine/State.lean ====
section
/-! DEFINITION. The state of the core: the one record at the head of 10_state.md, its memory as plain data, and reset. -/

namespace Sys2Proof.Machine

/-- The flags register F: four independent booleans (10_state.md R21). As booleans they have no low nibble to keep zero (R24). -/
structure Flags where
  /-- `zero`. -/
  z : Bool
  /-- `subtract`. -/
  n : Bool
  /-- `half_carry`. -/
  h : Bool
  /-- `carry`. -/
  c : Bool
deriving DecidableEq, Repr

/-- Machine status (10_state.md R35). -/
inductive Status where
  | running
  /-- A decode failure ended execution: the prefix mark and the byte that had no mapping (60_exceptions.md R300). -/
  | fault (prefixed : Bool) (op : Byte)
deriving DecidableEq, Repr

/-- The bus storage (10_state.md R34): the cells that differ from `Config.unlistedByte`, in rising address order. -/
abbrev Memory := List Host.Cell

/-- The cells from address `lo` on are in canonical form. -/
def Memory.wfFrom (lo : Nat) : Memory → Bool
  | [] => true
  | (k, v) :: m => decide (lo ≤ k) && decide (k < 65536) && decide (v ≠ Config.unlistedByte) && Memory.wfFrom (k + 1) m

/-- The canonical form: addresses strictly rising, all of the 16-bit space, no cell equal to what an unlisted address reads as. -/
def Memory.wf (m : Memory) : Bool := Memory.wfFrom 0 m

/-- The whole architectural state (10_state.md, the record `State`). -/
structure State where
  /-- Data register A, the accumulator (R20). -/
  a : Byte
  /-- Data register B (R20). -/
  b : Byte
  /-- Data register C (R20). -/
  c : Byte
  /-- Data register D (R20). -/
  d : Byte
  /-- Data register E (R20). -/
  e : Byte
  /-- Data register H (R20). -/
  h : Byte
  /-- Data register L (R20). -/
  l : Byte
  /-- The flags register F (R21). -/
  f : Flags
  /-- The stack pointer (R25). -/
  sp : Word
  /-- The program counter (R32). -/
  pc : Word
  /-- The memory bus (R34). -/
  mem : Memory
  /-- Running, or the terminal fault (R35). -/
  status : Status
deriving DecidableEq, Repr

/-- The reasons a step stops outside the state. There is none: the one event of this core, the unknown instruction, has an
effect the spec describes, on `State.status` (60_exceptions.md R300, R305), and a faulted core that is stepped stays as it is
(R314). So no step raises a fault, which is safe (log entry 4). -/
inductive Fault where
deriving DecidableEq, Repr

/-- The reasons an instruction has no meaning. -/
inductive Refusal where
  /-- Raised by `exec` for an instruction whose meaning is not written yet. No arm raises it: every instruction has its
  meaning. Safe. -/
  | notModelled (mnemonic : String)
deriving DecidableEq, Repr

/-- Reset of a core with the parameters `RESET_PC` and `MEM0` (70_reset_and_hazards.md R340, 10_state.md R40). -/
def State.resetWith (resetPc : Word) (mem0 : Memory) : State where
  a := 0x00
  b := 0x00
  c := 0x00
  d := 0x00
  e := 0x00
  h := 0x00
  l := 0x00
  f := ⟨false, false, false, false⟩
  sp := 0x0000
  pc := resetPc
  mem := mem0
  status := .running

/-- The machine right after reset, with the parameters at their defaults (log entries 1 and 2). -/
def State.reset : State := State.resetWith Config.resetPc []

end Sys2Proof.Machine
end

