-- ==== Sys2Proof/Machine/Ops.lean ====
section
/-! DEFINITION. The named operations over memory, registers, pc and status (10_state.md, 20_memory.md R50 to R55,
60_exceptions.md R300). -/

namespace Sys2Proof.Machine

/-! ## Memory (20_memory.md R50, R51) -/

/-- The byte at key `k`: its first cell, or what an unlisted address reads as. -/
def memLookup : Memory → Nat → Byte
  | [], _ => Config.unlistedByte
  | cell :: m, k => if cell.1 = k then cell.2 else memLookup m k

/-- The memory without any cell at key `k`. -/
def memErase (m : Memory) (k : Nat) : Memory := m.filter (fun cell => cell.1 != k)

/-- The cell `(k, v)` put before the first cell with a greater address. -/
def memInsert : Memory → Nat → Byte → Memory
  | [], k, v => [(k, v)]
  | cell :: m, k, v => if k < cell.1 then (k, v) :: cell :: m else cell :: memInsert m k v

/-- `MemRead(addr, 1)` (R51). A read changes no state. -/
def memRead (m : Memory) (addr : Word) : Byte := memLookup m addr.toNat

/-- `MemWrite(addr, 1, v)` (R51): exactly one byte changes. The canonical form is kept. -/
def memWrite (m : Memory) (addr : Word) (v : Byte) : Memory :=
  if v = Config.unlistedByte then memErase m addr.toNat else memInsert (memErase m addr.toNat) addr.toNat v

/-- Memory with `bytes` at `addr`, `addr + 1`, …, wrapping at the top of the address space (R55). -/
def memWriteBytes (m : Memory) (addr : Word) : List Byte → Memory
  | [] => m
  | v :: bytes => memWriteBytes (memWrite m addr v) (addr + 1) bytes

/-! ## Byte registers (10_state.md R20; 00_scope.md R10) -/

/-- `x[r]`. -/
def readReg (r : Reg8) (s : State) : Byte :=
  match r with
  | .a => s.a
  | .b => s.b
  | .c => s.c
  | .d => s.d
  | .e => s.e
  | .h => s.h
  | .l => s.l

/-- `x[r] <- v`. Every data register is writable and none is hardwired. -/
def writeReg (r : Reg8) (v : Byte) (s : State) : State :=
  match r with
  | .a => { s with a := v }
  | .b => { s with b := v }
  | .c => { s with c := v }
  | .d => { s with d := v }
  | .e => { s with e := v }
  | .h => { s with h := v }
  | .l => { s with l := v }

/-! ## The flags register (10_state.md R21 to R24) -/

/-- `F <- F'`. -/
def setFlags (f : Flags) (s : State) : State := { s with f := f }

/-- `to_byte(F)` (R22). -/
def flagsToByte (f : Flags) : Byte :=
  (if f.z then 0x80 else 0) ||| (if f.n then 0x40 else 0) ||| (if f.h then 0x20 else 0) ||| (if f.c then 0x10 else 0)

/-- `from_byte(b)` (R23): bits 3 to 0 are ignored. -/
def flagsFromByte (b : Byte) : Flags := ⟨b.getLsbD 7, b.getLsbD 6, b.getLsbD 5, b.getLsbD 4⟩

/-! ## Register pairs, views with the high register as high byte (10_state.md R26 to R30) -/

/-- `get_bc()` (R26). -/
def getBc (s : State) : Word := wordOfBytes s.b s.c

/-- `set_bc(v)` (R26). -/
def setBc (v : Word) (s : State) : State := { s with b := hiByte v, c := loByte v }

/-- `get_de()` (R27). -/
def getDe (s : State) : Word := wordOfBytes s.d s.e

/-- `set_de(v)` (R27). -/
def setDe (v : Word) (s : State) : State := { s with d := hiByte v, e := loByte v }

/-- `get_hl()` (R28). -/
def getHl (s : State) : Word := wordOfBytes s.h s.l

/-- `set_hl(v)` (R28). -/
def setHl (v : Word) (s : State) : State := { s with h := hiByte v, l := loByte v }

/-- `get_af()` (R29): the view of the accumulator and the packed flags. No admitted instruction uses it. -/
def getAf (s : State) : Word := wordOfBytes s.a (flagsToByte s.f)

/-- `set_af(v)` (R29). -/
def setAf (v : Word) (s : State) : State := { s with a := hiByte v, f := flagsFromByte (loByte v) }

/-! ## Program counter (10_state.md R32, R33) -/

/-- `pc <- target`. -/
def setPc (target : Word) (s : State) : State := { s with pc := target }

/-- The pc after an instruction of `n` bytes that does not jump: `pc +_16 n` (20_memory.md R55). -/
def pcAfter (n : Nat) (s : State) : Word := s.pc + BitVec.ofNat 16 n

/-- `sext_16(v)` (00_scope.md R9). -/
def sext16 (v : Byte) : Word := v.signExtend 16

/-! ## Fetch (30_encoding.md R80, R90) -/

/-- The decoded instruction at pc, for a core with the parameter `ADMITTED`: from the bytes at pc, pc +_16 1 and pc +_16 2.
A read has no side effect, so reading a byte that the instruction does not use is not observable (log entry 6). -/
def fetchDecode (admitted : Bool → Byte → Bool) (s : State) : Except Unknown Instr :=
  decodeWith admitted (memRead s.mem s.pc) (memRead s.mem (s.pc + 1)) (memRead s.mem (s.pc + 2))

/-! ## The one exception (60_exceptions.md) -/

/-- Taking the unknown-instruction fault (R300, R305): status becomes `Fault(prefixed, op)` and nothing else changes; pc still
holds the address of the instruction's first byte. Nothing is saved, and there is no handler, vector or mode. -/
def takeFault (u : Unknown) (s : State) : State := { s with status := .fault u.prefixed u.op }

/-- A step of a faulted core. There is no return from the fault (R306): a model that keeps stepping leaves the state unchanged
(R314), and only reset makes the core run again. -/
def stayFaulted (s : State) : State := s

end Sys2Proof.Machine
end

