-- ==== Sys2Proof/Machine/Operands.lean ====
section
/-! DEFINITION. Operand addressing (20_memory.md R56 to R62) and condition codes (45_jump.md R270). -/

namespace Sys2Proof.Machine

/-- `resolve_byte(t)` (R57): the value, and how many bytes an unprefixed instruction with only this operand occupies. -/
def resolveByte (t : ByteTarget) (s : State) : Byte × Nat :=
  match t with
  | .reg r => (readReg r s, 1)
  | .memHl => (memRead s.mem (getHl s), 1)
  | .imm d8 => (d8, 2)

/-- `write_byte(t, v)` (R58). Writing the immediate form has no effect (R59). -/
def writeByte (t : ByteTarget) (v : Byte) (s : State) : State :=
  match t with
  | .reg r => writeReg r v s
  | .memHl => { s with mem := memWrite s.mem (getHl s) v }
  | .imm _ => s

/-- `resolve_word(t)` (R62): no memory access, no instruction byte. -/
def resolveWord (t : WordTarget) (s : State) : Word :=
  match t with
  | .bc => getBc s
  | .de => getDe s
  | .hl => getHl s
  | .sp => s.sp

/-- `write_word(t, v)` (R62): no memory access, no flag. -/
def writeWord (t : WordTarget) (v : Word) (s : State) : State :=
  match t with
  | .bc => setBc v s
  | .de => setDe v s
  | .hl => setHl v s
  | .sp => { s with sp := v }

/-- `evaluate_condition(F, t)` (R270). N and H are never tested. -/
def evaluateCondition (f : Flags) (t : Cond) : Bool :=
  match t with
  | .notZero => !f.z
  | .zero => f.z
  | .notCarry => !f.c
  | .carry => f.c
  | .always => true

end Sys2Proof.Machine
end

