-- ==== Sys2Proof/Machine/Flags.lean ====
section
/-! DEFINITION. The ALU primitives of 40_alu_primitives.md: each takes its operands and F and returns the result and F'.
A flag a primitive does not name is carried over. Several flag rules are the source's own and differ from the SM83 as generally
known (93_implementation_defined.md part 3); the source is normative. -/

namespace Sys2Proof.Machine

/-! ## Addition and subtraction -/

/-- `add(l, r, F)` (R122). Z needs the sum to be zero without overflow. -/
def aluAdd (l r : Byte) (_f : Flags) : Byte × Flags :=
  let s := l.toNat + r.toNat
  (BitVec.ofNat 8 s,
    { z := decide (s % 256 = 0 ∧ ¬ s > 0xFF)
      n := false
      h := decide (l.toNat % 16 + r.toNat % 16 > 0xF)
      c := decide (s > 0xFF) })

/-- `add_c(l, r, F)` (R123): the carry-in is the carry that `add` just produced; the incoming F.C is not read, and all four
flags are those of `add` (90_conflicts.md C1). -/
def aluAddC (l r : Byte) (f : Flags) : Byte × Flags :=
  let (res0, f1) := aluAdd l r f
  (if f1.c then res0 + 1 else res0, f1)

/-- `sub(l, r, F)` (R124). -/
def aluSub (l r : Byte) (_f : Flags) : Byte × Flags :=
  let res := l - r
  let borrow := decide (l.toNat < r.toNat)
  (res,
    { z := decide (res = 0) && !borrow
      n := true
      h := decide (l.toNat % 16 < r.toNat % 16)
      c := borrow })

/-- `sub_c(l, r, F)` (R125): the borrow-in is the borrow that `sub` just produced; the incoming F.C is not read, and all four
flags are those of `sub` (90_conflicts.md C1). -/
def aluSubC (l r : Byte) (f : Flags) : Byte × Flags :=
  let (res0, f1) := aluSub l r f
  (if f1.c then res0 - 1 else res0, f1)

/-- `add_hl(l, r, F)` (R126), the 16-bit add: half-carry out of bit 11. -/
def aluAddHl (l r : Word) (_f : Flags) : Word × Flags :=
  let s := l.toNat + r.toNat
  (BitVec.ofNat 16 s,
    { z := decide (s % 65536 = 0 ∧ ¬ s > 0xFFFF)
      n := false
      h := decide (l.toNat % 4096 + r.toNat % 4096 > 0xFFF)
      c := decide (s > 0xFFFF) })

/-! ## Logic -/

/-- `and(l, r, F)` (R127). -/
def aluAnd (l r : Byte) (_f : Flags) : Byte × Flags :=
  let res := l &&& r
  (res, { z := decide (res = 0), n := false, h := true, c := false })

/-- `or(l, r, F)` (R128). -/
def aluOr (l r : Byte) (_f : Flags) : Byte × Flags :=
  let res := l ||| r
  (res, { z := decide (res = 0), n := false, h := false, c := false })

/-- `xor(l, r, F)` (R129). -/
def aluXor (l r : Byte) (_f : Flags) : Byte × Flags :=
  let res := l ^^^ r
  (res, { z := decide (res = 0), n := false, h := false, c := false })

/-- `complement(v, F)` (R130). -/
def aluComplement (v : Byte) (f : Flags) : Byte × Flags :=
  let res := ~~~v
  (res, { z := decide (res = 0), n := true, h := true, c := f.c })

/-! ## Rotates and shifts -/

/-- `rotate_left(v, F)` (R131): Z unchanged. -/
def aluRotateLeft (v : Byte) (f : Flags) : Byte × Flags :=
  ((v <<< 1) ||| (v >>> 7), { z := f.z, n := false, h := false, c := v.getLsbD 7 })

/-- `rotate_left_through_carry(v, F)` (R132): `rotate_left`, then OR in the old carry at bit 0 (90_conflicts.md C2). -/
def aluRotateLeftThroughCarry (v : Byte) (f : Flags) : Byte × Flags :=
  let (res0, f1) := aluRotateLeft v f
  (res0 ||| (if f.c then 0x01 else 0x00), f1)

/-- `rotate_right(v, F)` (R133): Z cleared unconditionally (90_conflicts.md C5). -/
def aluRotateRight (v : Byte) (_f : Flags) : Byte × Flags :=
  ((v >>> 1) ||| (v <<< 7), { z := false, n := false, h := false, c := v.getLsbD 0 })

/-- `rotate_right_through_carry(v, F)` (R134): `rotate_right`, then OR in the old carry at bit 7. -/
def aluRotateRightThroughCarry (v : Byte) (f : Flags) : Byte × Flags :=
  let (res0, f1) := aluRotateRight v f
  (res0 ||| (if f.c then 0x80 else 0x00), f1)

/-- `shift_left(v, F)` (R135). -/
def aluShiftLeft (v : Byte) (_f : Flags) : Byte × Flags :=
  let res := v <<< 1
  (res, { z := decide (res = 0), n := false, h := false, c := v.getLsbD 7 })

/-- `shift_right_logical(v, F)` (R136). -/
def aluShiftRightLogical (v : Byte) (_f : Flags) : Byte × Flags :=
  let res := v >>> 1
  (res, { z := decide (res = 0), n := false, h := false, c := v.getLsbD 0 })

/-- `shift_right_arithmetic(v, F)` (R137): bit 7 kept. -/
def aluShiftRightArithmetic (v : Byte) (_f : Flags) : Byte × Flags :=
  let res := (v >>> 1) ||| (v &&& 0x80)
  (res, { z := decide (res = 0), n := false, h := false, c := v.getLsbD 0 })

/-- `swap_nibbles(v, F)` (R138). -/
def aluSwapNibbles (v : Byte) (_f : Flags) : Byte × Flags :=
  let res := (v <<< 4) ||| (v >>> 4)
  (res, { z := decide (res = 0), n := false, h := false, c := false })

/-! ## Bit operations -/

/-- `BitIndex::build(idx)` (R139): succeeds exactly on 0 to 7. -/
def buildBitIndex (idx : Byte) : Option (Fin 8) := if h : idx.toNat < 8 then some ⟨idx.toNat, h⟩ else none

/-- `bit_check(v, idx, F)` (R140); an index out of range leaves the flags untouched (R143). -/
def aluBitCheck (v idx : Byte) (f : Flags) : Flags :=
  match buildBitIndex idx with
  | some i => { z := !v.getLsbD i.val, n := false, h := true, c := f.c }
  | none => f

/-- `bit_set(v, idx)` (R141); an index out of range leaves the value untouched (R143). -/
def aluBitSet (v idx : Byte) : Byte :=
  match buildBitIndex idx with
  | some i => v ||| ((1 : Byte) <<< i.val)
  | none => v

/-- `bit_reset(v, idx)` (R142); an index out of range leaves the value untouched (R143). -/
def aluBitReset (v idx : Byte) : Byte :=
  match buildBitIndex idx with
  | some i => v &&& ~~~((1 : Byte) <<< i.val)
  | none => v

/-! ## Increment, decrement and the flag-only forms -/

/-- `inc8(v, F)` (R144): C unchanged. -/
def aluInc8 (v : Byte) (f : Flags) : Byte × Flags :=
  let res := v + 1
  (res, { z := decide (res = 0), n := false, h := decide (v.toNat % 16 = 0xF), c := f.c })

/-- `dec8(v, F)` (R145): C unchanged. -/
def aluDec8 (v : Byte) (f : Flags) : Byte × Flags :=
  let res := v - 1
  (res, { z := decide (res = 0), n := true, h := decide (v.toNat % 16 = 0x0), c := f.c })

/-- `inc16(v)` (R146): no flag. -/
def aluInc16 (v : Word) : Word := v + 1

/-- `dec16(v)` (R146): no flag. -/
def aluDec16 (v : Word) : Word := v - 1

/-- The flags after CCF (41_alu8.md R189). -/
def flagsCcf (f : Flags) : Flags := { z := f.z, n := false, h := false, c := !f.c }

/-- The flags after SCF (41_alu8.md R190). -/
def flagsScf (f : Flags) : Flags := { z := f.z, n := false, h := false, c := true }

end Sys2Proof.Machine
end

