-- ==== Sys2Proof/Machine/Alu16.lean ====
section
/-! DEFINITION. 16-bit arithmetic (42_alu16.md R200 to R203). -/

namespace Sys2Proof.Machine

/-- ADD HL,rr (R200): the operand is read before HL is written. -/
def execAddHlRr (p : WordTarget) (s : State) : Host.Outcome State Fault Refusal :=
  let (res, f') := aluAddHl (getHl s) (resolveWord p s) s.f
  .next (setPc (pcAfter 1 s) (setFlags f' (setHl res s)))

/-- ADD SP,e8 (R201): the 16-bit add of the sign-extended displacement, then Z cleared unconditionally. -/
def execAddSpE8 (e8 : Byte) (s : State) : Host.Outcome State Fault Refusal :=
  let (res, f') := aluAddHl s.sp (sext16 e8) s.f
  .next (setPc (pcAfter 2 s) (setFlags { f' with z := false } (writeWord .sp res s)))

/-- INC rr (R202): no flag is written. -/
def execIncRr (p : WordTarget) (s : State) : Host.Outcome State Fault Refusal :=
  .next (setPc (pcAfter 1 s) (writeWord p (aluInc16 (resolveWord p s)) s))

/-- DEC rr (R203): no flag is written. -/
def execDecRr (p : WordTarget) (s : State) : Host.Outcome State Fault Refusal :=
  .next (setPc (pcAfter 1 s) (writeWord p (aluDec16 (resolveWord p s)) s))

end Sys2Proof.Machine
end

