-- ==== Sys2Proof/Machine/Alu8.lean ====
section
/-! DEFINITION. 8-bit arithmetic and logic (41_alu8.md R160 to R190). -/

namespace Sys2Proof.Machine

/-- An ALU operation on A and a byte target (R160 to R180): result to A, flags to F, pc past the operand (20_memory.md R57). -/
def aluOnA (op : Byte → Byte → Flags → Byte × Flags) (t : ByteTarget) (s : State) : State :=
  let (v, n) := resolveByte t s
  let (res, f') := op s.a v s.f
  setPc (pcAfter n s) (setFlags f' (writeReg .a res s))

/-- The compare on A and a byte target (R181 to R183): the flags of `sub`, the result discarded. -/
def compareOnA (t : ByteTarget) (s : State) : State :=
  let (v, n) := resolveByte t s
  let (_, f') := aluSub s.a v s.f
  setPc (pcAfter n s) (setFlags f' s)

/-- An operation that reads a byte target once and writes it once (20_memory.md R60), with its flags, in an instruction of
`n` bytes. -/
def modifyByte (op : Byte → Flags → Byte × Flags) (t : ByteTarget) (n : Nat) (s : State) : State :=
  let (res, f') := op (resolveByte t s).1 s.f
  setPc (pcAfter n s) (setFlags f' (writeByte t res s))

/-- ADD A,r (R160). -/
def execAddAR (r : Reg8) (s : State) : Host.Outcome State Fault Refusal := .next (aluOnA aluAdd (.reg r) s)

/-- ADD A,(HL) (R161). -/
def execAddAMem (s : State) : Host.Outcome State Fault Refusal := .next (aluOnA aluAdd .memHl s)

/-- ADD A,d8 (R162). -/
def execAddAD8 (d8 : Byte) (s : State) : Host.Outcome State Fault Refusal := .next (aluOnA aluAdd (.imm d8) s)

/-- ADC A,r (R163). -/
def execAdcAR (r : Reg8) (s : State) : Host.Outcome State Fault Refusal := .next (aluOnA aluAddC (.reg r) s)

/-- ADC A,(HL) (R164). -/
def execAdcAMem (s : State) : Host.Outcome State Fault Refusal := .next (aluOnA aluAddC .memHl s)

/-- ADC A,d8 (R165). -/
def execAdcAD8 (d8 : Byte) (s : State) : Host.Outcome State Fault Refusal := .next (aluOnA aluAddC (.imm d8) s)

/-- SUB A,r (R166). -/
def execSubAR (r : Reg8) (s : State) : Host.Outcome State Fault Refusal := .next (aluOnA aluSub (.reg r) s)

/-- SUB A,(HL) (R167). -/
def execSubAMem (s : State) : Host.Outcome State Fault Refusal := .next (aluOnA aluSub .memHl s)

/-- SUB A,d8 (R168). -/
def execSubAD8 (d8 : Byte) (s : State) : Host.Outcome State Fault Refusal := .next (aluOnA aluSub (.imm d8) s)

/-- SBC A,r (R169). -/
def execSbcAR (r : Reg8) (s : State) : Host.Outcome State Fault Refusal := .next (aluOnA aluSubC (.reg r) s)

/-- SBC A,(HL) (R170). -/
def execSbcAMem (s : State) : Host.Outcome State Fault Refusal := .next (aluOnA aluSubC .memHl s)

/-- SBC A,d8 (R171). -/
def execSbcAD8 (d8 : Byte) (s : State) : Host.Outcome State Fault Refusal := .next (aluOnA aluSubC (.imm d8) s)

/-- AND A,r (R172). -/
def execAndAR (r : Reg8) (s : State) : Host.Outcome State Fault Refusal := .next (aluOnA aluAnd (.reg r) s)

/-- AND A,(HL) (R173). -/
def execAndAMem (s : State) : Host.Outcome State Fault Refusal := .next (aluOnA aluAnd .memHl s)

/-- AND A,d8 (R174). -/
def execAndAD8 (d8 : Byte) (s : State) : Host.Outcome State Fault Refusal := .next (aluOnA aluAnd (.imm d8) s)

/-- XOR A,r (R175). -/
def execXorAR (r : Reg8) (s : State) : Host.Outcome State Fault Refusal := .next (aluOnA aluXor (.reg r) s)

/-- XOR A,(HL) (R176). -/
def execXorAMem (s : State) : Host.Outcome State Fault Refusal := .next (aluOnA aluXor .memHl s)

/-- XOR A,d8 (R177). -/
def execXorAD8 (d8 : Byte) (s : State) : Host.Outcome State Fault Refusal := .next (aluOnA aluXor (.imm d8) s)

/-- OR A,r (R178). -/
def execOrAR (r : Reg8) (s : State) : Host.Outcome State Fault Refusal := .next (aluOnA aluOr (.reg r) s)

/-- OR A,(HL) (R179). -/
def execOrAMem (s : State) : Host.Outcome State Fault Refusal := .next (aluOnA aluOr .memHl s)

/-- OR A,d8 (R180). -/
def execOrAD8 (d8 : Byte) (s : State) : Host.Outcome State Fault Refusal := .next (aluOnA aluOr (.imm d8) s)

/-- CP A,r (R181). -/
def execCpAR (r : Reg8) (s : State) : Host.Outcome State Fault Refusal := .next (compareOnA (.reg r) s)

/-- CP A,(HL) (R182). -/
def execCpAMem (s : State) : Host.Outcome State Fault Refusal := .next (compareOnA .memHl s)

/-- CP A,d8 (R183). -/
def execCpAD8 (d8 : Byte) (s : State) : Host.Outcome State Fault Refusal := .next (compareOnA (.imm d8) s)

/-- INC r (R184). -/
def execIncR (r : Reg8) (s : State) : Host.Outcome State Fault Refusal := .next (modifyByte aluInc8 (.reg r) 1 s)

/-- INC (HL) (R185). -/
def execIncMem (s : State) : Host.Outcome State Fault Refusal := .next (modifyByte aluInc8 .memHl 1 s)

/-- DEC r (R186). -/
def execDecR (r : Reg8) (s : State) : Host.Outcome State Fault Refusal := .next (modifyByte aluDec8 (.reg r) 1 s)

/-- DEC (HL) (R187). -/
def execDecMem (s : State) : Host.Outcome State Fault Refusal := .next (modifyByte aluDec8 .memHl 1 s)

/-- CPL (R188): the operand is A. -/
def execCpl (s : State) : Host.Outcome State Fault Refusal := .next (modifyByte aluComplement (.reg .a) 1 s)

/-- CCF (R189): flags only. -/
def execCcf (s : State) : Host.Outcome State Fault Refusal := .next (setPc (pcAfter 1 s) (setFlags (flagsCcf s.f) s))

/-- SCF (R190): flags only. -/
def execScf (s : State) : Host.Outcome State Fault Refusal := .next (setPc (pcAfter 1 s) (setFlags (flagsScf s.f) s))

end Sys2Proof.Machine
end

