-- ==== Sys2Proof/Machine/Bit.lean ====
section
/-! DEFINITION. Bit test, reset and set (44_bit.md R250 to R255): all prefixed, two bytes long. -/

namespace Sys2Proof.Machine

/-- Bit test of a byte target: one read, no write of the target (R250, R251). -/
def testBit (b : Byte) (t : ByteTarget) (s : State) : State :=
  setPc (pcAfter 2 s) (setFlags (aluBitCheck (resolveByte t s).1 b s.f) s)

/-- Bit set or reset of a byte target: read once, written once, no flag (R252 to R255). -/
def changeBit (op : Byte → Byte → Byte) (b : Byte) (t : ByteTarget) (s : State) : State :=
  setPc (pcAfter 2 s) (writeByte t (op (resolveByte t s).1 b) s)

/-- BIT b,r (R250). -/
def execBitBR (b : Byte) (r : Reg8) (s : State) : Host.Outcome State Fault Refusal := .next (testBit b (.reg r) s)

/-- BIT b,(HL) (R251). -/
def execBitBMem (b : Byte) (s : State) : Host.Outcome State Fault Refusal := .next (testBit b .memHl s)

/-- RES b,r (R252). -/
def execResBR (b : Byte) (r : Reg8) (s : State) : Host.Outcome State Fault Refusal := .next (changeBit aluBitReset b (.reg r) s)

/-- RES b,(HL) (R253). -/
def execResBMem (b : Byte) (s : State) : Host.Outcome State Fault Refusal := .next (changeBit aluBitReset b .memHl s)

/-- SET b,r (R254). -/
def execSetBR (b : Byte) (r : Reg8) (s : State) : Host.Outcome State Fault Refusal := .next (changeBit aluBitSet b (.reg r) s)

/-- SET b,(HL) (R255). -/
def execSetBMem (b : Byte) (s : State) : Host.Outcome State Fault Refusal := .next (changeBit aluBitSet b .memHl s)

end Sys2Proof.Machine
end

