-- ==== Sys2Proof/Machine/Jump.lean ====
section
/-! DEFINITION. The jump evaluator and the jumps (45_jump.md R270 to R277). Jumps read flags and never write them. -/

namespace Sys2Proof.Machine

/-- `jump(t)` (R271): the next pc of an absolute jump to `a16`; not taken, it is past the three bytes. -/
def jumpTarget (t : Cond) (a16 : Word) (s : State) : Word :=
  if evaluateCondition s.f t then a16 else pcAfter 3 s

/-- `jump_relative(t)` (R272): the displacement counts from the next instruction; not taken, it is past the two bytes. -/
def jumpRelativeTarget (t : Cond) (e8 : Byte) (s : State) : Word :=
  if evaluateCondition s.f t then pcAfter 2 s + sext16 e8 else pcAfter 2 s

/-- JP a16 (R273). -/
def execJpA16 (a16 : Word) (s : State) : Host.Outcome State Fault Refusal := .next (setPc (jumpTarget .always a16 s) s)

/-- JP cc,a16 (R274). -/
def execJpCcA16 (cc : Cond) (a16 : Word) (s : State) : Host.Outcome State Fault Refusal := .next (setPc (jumpTarget cc a16 s) s)

/-- JR e8 (R275). -/
def execJrE8 (e8 : Byte) (s : State) : Host.Outcome State Fault Refusal := .next (setPc (jumpRelativeTarget .always e8 s) s)

/-- JR cc,e8 (R276). -/
def execJrCcE8 (cc : Cond) (e8 : Byte) (s : State) : Host.Outcome State Fault Refusal := .next (setPc (jumpRelativeTarget cc e8 s) s)

/-- JP HL (R277): pc is the pair itself; no memory is read at HL. -/
def execJpHl (s : State) : Host.Outcome State Fault Refusal := .next (setPc (getHl s) s)

end Sys2Proof.Machine
end

