-- ==== Sys2Proof/Machine/RotateShift.lean ====
section
/-! DEFINITION. Rotates, shifts and nibble swap (43_rotate_shift.md R220 to R239). A prefixed instruction is two bytes long,
the prefix byte counted (90_conflicts.md C4). -/

namespace Sys2Proof.Machine

/-- RLCA (R220). -/
def execRlca (s : State) : Host.Outcome State Fault Refusal := .next (modifyByte aluRotateLeft (.reg .a) 1 s)

/-- RRCA (R221). -/
def execRrca (s : State) : Host.Outcome State Fault Refusal := .next (modifyByte aluRotateRight (.reg .a) 1 s)

/-- RLA (R222). -/
def execRla (s : State) : Host.Outcome State Fault Refusal := .next (modifyByte aluRotateLeftThroughCarry (.reg .a) 1 s)

/-- RRA (R223). -/
def execRra (s : State) : Host.Outcome State Fault Refusal := .next (modifyByte aluRotateRightThroughCarry (.reg .a) 1 s)

/-- RLC r (R224). -/
def execRlcR (r : Reg8) (s : State) : Host.Outcome State Fault Refusal := .next (modifyByte aluRotateLeft (.reg r) 2 s)

/-- RLC (HL) (R225). -/
def execRlcMem (s : State) : Host.Outcome State Fault Refusal := .next (modifyByte aluRotateLeft .memHl 2 s)

/-- RRC r (R226). -/
def execRrcR (r : Reg8) (s : State) : Host.Outcome State Fault Refusal := .next (modifyByte aluRotateRight (.reg r) 2 s)

/-- RRC (HL) (R227). -/
def execRrcMem (s : State) : Host.Outcome State Fault Refusal := .next (modifyByte aluRotateRight .memHl 2 s)

/-- RL r (R228). -/
def execRlR (r : Reg8) (s : State) : Host.Outcome State Fault Refusal := .next (modifyByte aluRotateLeftThroughCarry (.reg r) 2 s)

/-- RL (HL) (R229). -/
def execRlMem (s : State) : Host.Outcome State Fault Refusal := .next (modifyByte aluRotateLeftThroughCarry .memHl 2 s)

/-- RR r (R230). -/
def execRrR (r : Reg8) (s : State) : Host.Outcome State Fault Refusal := .next (modifyByte aluRotateRightThroughCarry (.reg r) 2 s)

/-- RR (HL) (R231). -/
def execRrMem (s : State) : Host.Outcome State Fault Refusal := .next (modifyByte aluRotateRightThroughCarry .memHl 2 s)

/-- SLA r (R232). -/
def execSlaR (r : Reg8) (s : State) : Host.Outcome State Fault Refusal := .next (modifyByte aluShiftLeft (.reg r) 2 s)

/-- SLA (HL) (R233). -/
def execSlaMem (s : State) : Host.Outcome State Fault Refusal := .next (modifyByte aluShiftLeft .memHl 2 s)

/-- SRA r (R234). -/
def execSraR (r : Reg8) (s : State) : Host.Outcome State Fault Refusal := .next (modifyByte aluShiftRightArithmetic (.reg r) 2 s)

/-- SRA (HL) (R235). -/
def execSraMem (s : State) : Host.Outcome State Fault Refusal := .next (modifyByte aluShiftRightArithmetic .memHl 2 s)

/-- SWAP r (R236). -/
def execSwapR (r : Reg8) (s : State) : Host.Outcome State Fault Refusal := .next (modifyByte aluSwapNibbles (.reg r) 2 s)

/-- SWAP (HL) (R237). -/
def execSwapMem (s : State) : Host.Outcome State Fault Refusal := .next (modifyByte aluSwapNibbles .memHl 2 s)

/-- SRL r (R238). -/
def execSrlR (r : Reg8) (s : State) : Host.Outcome State Fault Refusal := .next (modifyByte aluShiftRightLogical (.reg r) 2 s)

/-- SRL (HL) (R239). -/
def execSrlMem (s : State) : Host.Outcome State Fault Refusal := .next (modifyByte aluShiftRightLogical .memHl 2 s)

end Sys2Proof.Machine
end

