-- ==== Sys2Proof/Machine/Dispatch.lean ====
section
/-! DEFINITION. `execute(ins)` (30_encoding.md R81): one arm per constructor of Instr. -/

namespace Sys2Proof.Machine

def exec (i : Instr) (s : State) : Host.Outcome State Fault Refusal :=
  match i with
  | .addAR r => Sys2Proof.Machine.execAddAR r s
  | .addAMem => Sys2Proof.Machine.execAddAMem s
  | .addAD8 d8 => Sys2Proof.Machine.execAddAD8 d8 s
  | .adcAR r => Sys2Proof.Machine.execAdcAR r s
  | .adcAMem => Sys2Proof.Machine.execAdcAMem s
  | .adcAD8 d8 => Sys2Proof.Machine.execAdcAD8 d8 s
  | .subAR r => Sys2Proof.Machine.execSubAR r s
  | .subAMem => Sys2Proof.Machine.execSubAMem s
  | .subAD8 d8 => Sys2Proof.Machine.execSubAD8 d8 s
  | .sbcAR r => Sys2Proof.Machine.execSbcAR r s
  | .sbcAMem => Sys2Proof.Machine.execSbcAMem s
  | .sbcAD8 d8 => Sys2Proof.Machine.execSbcAD8 d8 s
  | .andAR r => Sys2Proof.Machine.execAndAR r s
  | .andAMem => Sys2Proof.Machine.execAndAMem s
  | .andAD8 d8 => Sys2Proof.Machine.execAndAD8 d8 s
  | .xorAR r => Sys2Proof.Machine.execXorAR r s
  | .xorAMem => Sys2Proof.Machine.execXorAMem s
  | .xorAD8 d8 => Sys2Proof.Machine.execXorAD8 d8 s
  | .orAR r => Sys2Proof.Machine.execOrAR r s
  | .orAMem => Sys2Proof.Machine.execOrAMem s
  | .orAD8 d8 => Sys2Proof.Machine.execOrAD8 d8 s
  | .cpAR r => Sys2Proof.Machine.execCpAR r s
  | .cpAMem => Sys2Proof.Machine.execCpAMem s
  | .cpAD8 d8 => Sys2Proof.Machine.execCpAD8 d8 s
  | .incR r => Sys2Proof.Machine.execIncR r s
  | .incMem => Sys2Proof.Machine.execIncMem s
  | .decR r => Sys2Proof.Machine.execDecR r s
  | .decMem => Sys2Proof.Machine.execDecMem s
  | .cpl => Sys2Proof.Machine.execCpl s
  | .ccf => Sys2Proof.Machine.execCcf s
  | .scf => Sys2Proof.Machine.execScf s
  | .addHlRr p => Sys2Proof.Machine.execAddHlRr p s
  | .addSpE8 e8 => Sys2Proof.Machine.execAddSpE8 e8 s
  | .incRr p => Sys2Proof.Machine.execIncRr p s
  | .decRr p => Sys2Proof.Machine.execDecRr p s
  | .rlca => Sys2Proof.Machine.execRlca s
  | .rrca => Sys2Proof.Machine.execRrca s
  | .rla => Sys2Proof.Machine.execRla s
  | .rra => Sys2Proof.Machine.execRra s
  | .rlcR r => Sys2Proof.Machine.execRlcR r s
  | .rlcMem => Sys2Proof.Machine.execRlcMem s
  | .rrcR r => Sys2Proof.Machine.execRrcR r s
  | .rrcMem => Sys2Proof.Machine.execRrcMem s
  | .rlR r => Sys2Proof.Machine.execRlR r s
  | .rlMem => Sys2Proof.Machine.execRlMem s
  | .rrR r => Sys2Proof.Machine.execRrR r s
  | .rrMem => Sys2Proof.Machine.execRrMem s
  | .slaR r => Sys2Proof.Machine.execSlaR r s
  | .slaMem => Sys2Proof.Machine.execSlaMem s
  | .sraR r => Sys2Proof.Machine.execSraR r s
  | .sraMem => Sys2Proof.Machine.execSraMem s
  | .swapR r => Sys2Proof.Machine.execSwapR r s
  | .swapMem => Sys2Proof.Machine.execSwapMem s
  | .srlR r => Sys2Proof.Machine.execSrlR r s
  | .srlMem => Sys2Proof.Machine.execSrlMem s
  | .bitBR b r => Sys2Proof.Machine.execBitBR b r s
  | .bitBMem b => Sys2Proof.Machine.execBitBMem b s
  | .resBR b r => Sys2Proof.Machine.execResBR b r s
  | .resBMem b => Sys2Proof.Machine.execResBMem b s
  | .setBR b r => Sys2Proof.Machine.execSetBR b r s
  | .setBMem b => Sys2Proof.Machine.execSetBMem b s
  | .jpA16 a16 => Sys2Proof.Machine.execJpA16 a16 s
  | .jpCcA16 cc a16 => Sys2Proof.Machine.execJpCcA16 cc a16 s
  | .jrE8 e8 => Sys2Proof.Machine.execJrE8 e8 s
  | .jrCcE8 cc e8 => Sys2Proof.Machine.execJrCcE8 cc e8 s
  | .jpHl => Sys2Proof.Machine.execJpHl s

end Sys2Proof.Machine
end

