-- ==== Sys2Proof/Machine/Step.lean ====
section
/-! DEFINITION. One step of the core (30_encoding.md R80), and the placing of one instruction where the step fetches. -/

namespace Sys2Proof.Machine

/-- The step of a core with the parameter `ADMITTED` (R80, R83). A decode failure takes the fault of 60_exceptions.md R300 and
nothing of the instruction happens; a faulted core stays as it is (R314). -/
def stepWith (admitted : Bool → Byte → Bool) (s : State) : Host.Outcome State Fault Refusal :=
  match s.status with
  | .fault _ _ => .next (stayFaulted s)
  | .running =>
    match fetchDecode admitted s with
    | .ok i => exec i s
    | .error u => .next (takeFault u s)

/-- One step of the default core. -/
def step (s : State) : Host.Outcome State Fault Refusal := stepWith Config.admitted s

/-- The state with the instruction of the table word `w` at pc, so that the next step fetches and runs exactly it: its three
bytes at pc, pc +_16 1 and pc +_16 2, and the status that lets the core fetch (log entry 10). -/
def State.withFetchWord (s : State) (nbits w : Nat) : State :=
  let (b0, b1, b2) := tableBytes nbits w
  { s with mem := memWriteBytes s.mem s.pc [b0, b1, b2], status := .running }

end Sys2Proof.Machine
end

