-- ==== Sys2Proof/Safety.lean ====
section
/-! DEFINITION. What counts as a safe run, in the terms claims use: the invariant of the state, and for each instruction what it
may write and read (10_state.md R33, R38, R39; 20_memory.md R58). -/

namespace Sys2Proof.Safety

open Sys2Proof.Machine

/-! ## The invariant -/

/-- In a faulted state the pair recorded in status is the one that fails to decode at pc, so that "together with pc this
identifies the instruction" (60_exceptions.md R300). -/
def faultIsPrecise (s : State) : Prop :=
  match s.status with
  | .running => True
  | .fault prefixed op => fetchDecode Config.admitted s = .error ⟨prefixed, op⟩

/-- The invariant of a core: memory is in its canonical form and a fault is precise. -/
structure Inv (s : State) : Prop where
  memWf : s.mem.wf = true
  precise : faultIsPrecise s

/-- The core can still execute: no decode failure has ended the run (10_state.md R35). -/
def Running (s : State) : Prop := s.status = .running

/-! ## What an instruction may write -/

/-- The address of the byte an instruction stores to, where it stores: HL in its own state (20_memory.md R58). -/
def storeAddress (i : Instr) (s : State) : Option Word :=
  match i with
  | .incMem => some (getHl s)
  | .decMem => some (getHl s)
  | .rlcMem => some (getHl s)
  | .rrcMem => some (getHl s)
  | .rlMem => some (getHl s)
  | .rrMem => some (getHl s)
  | .slaMem => some (getHl s)
  | .sraMem => some (getHl s)
  | .swapMem => some (getHl s)
  | .srlMem => some (getHl s)
  | .resBMem _ => some (getHl s)
  | .setBMem _ => some (getHl s)
  | .addAR _ => none
  | .addAMem => none
  | .addAD8 _ => none
  | .adcAR _ => none
  | .adcAMem => none
  | .adcAD8 _ => none
  | .subAR _ => none
  | .subAMem => none
  | .subAD8 _ => none
  | .sbcAR _ => none
  | .sbcAMem => none
  | .sbcAD8 _ => none
  | .andAR _ => none
  | .andAMem => none
  | .andAD8 _ => none
  | .xorAR _ => none
  | .xorAMem => none
  | .xorAD8 _ => none
  | .orAR _ => none
  | .orAMem => none
  | .orAD8 _ => none
  | .cpAR _ => none
  | .cpAMem => none
  | .cpAD8 _ => none
  | .incR _ => none
  | .decR _ => none
  | .cpl => none
  | .ccf => none
  | .scf => none
  | .addHlRr _ => none
  | .addSpE8 _ => none
  | .incRr _ => none
  | .decRr _ => none
  | .rlca => none
  | .rrca => none
  | .rla => none
  | .rra => none
  | .rlcR _ => none
  | .rrcR _ => none
  | .rlR _ => none
  | .rrR _ => none
  | .slaR _ => none
  | .sraR _ => none
  | .swapR _ => none
  | .srlR _ => none
  | .bitBR _ _ => none
  | .bitBMem _ => none
  | .resBR _ _ => none
  | .setBR _ _ => none
  | .jpA16 _ => none
  | .jpCcA16 _ _ => none
  | .jrE8 _ => none
  | .jrCcE8 _ _ => none
  | .jpHl => none

/-- The two byte registers of a register pair; SP has none (10_state.md R25 to R28). -/
def pairRegs : WordTarget → List Reg8
  | .bc => [.b, .c]
  | .de => [.d, .e]
  | .hl => [.h, .l]
  | .sp => []

/-- The byte registers an instruction may write. -/
def regsWritten : Instr → List Reg8
  | .addAR _ => [.a]
  | .addAMem => [.a]
  | .addAD8 _ => [.a]
  | .adcAR _ => [.a]
  | .adcAMem => [.a]
  | .adcAD8 _ => [.a]
  | .subAR _ => [.a]
  | .subAMem => [.a]
  | .subAD8 _ => [.a]
  | .sbcAR _ => [.a]
  | .sbcAMem => [.a]
  | .sbcAD8 _ => [.a]
  | .andAR _ => [.a]
  | .andAMem => [.a]
  | .andAD8 _ => [.a]
  | .xorAR _ => [.a]
  | .xorAMem => [.a]
  | .xorAD8 _ => [.a]
  | .orAR _ => [.a]
  | .orAMem => [.a]
  | .orAD8 _ => [.a]
  | .cpl => [.a]
  | .rlca => [.a]
  | .rrca => [.a]
  | .rla => [.a]
  | .rra => [.a]
  | .incR r => [r]
  | .decR r => [r]
  | .rlcR r => [r]
  | .rrcR r => [r]
  | .rlR r => [r]
  | .rrR r => [r]
  | .slaR r => [r]
  | .sraR r => [r]
  | .swapR r => [r]
  | .srlR r => [r]
  | .resBR _ r => [r]
  | .setBR _ r => [r]
  | .addHlRr _ => [.h, .l]
  | .incRr p => pairRegs p
  | .decRr p => pairRegs p
  | .cpAR _ => []
  | .cpAMem => []
  | .cpAD8 _ => []
  | .incMem => []
  | .decMem => []
  | .ccf => []
  | .scf => []
  | .addSpE8 _ => []
  | .rlcMem => []
  | .rrcMem => []
  | .rlMem => []
  | .rrMem => []
  | .slaMem => []
  | .sraMem => []
  | .swapMem => []
  | .srlMem => []
  | .bitBR _ _ => []
  | .bitBMem _ => []
  | .resBMem _ => []
  | .setBMem _ => []
  | .jpA16 _ => []
  | .jpCcA16 _ _ => []
  | .jrE8 _ => []
  | .jrCcE8 _ _ => []
  | .jpHl => []

/-- The instructions that may write SP (10_state.md R25; 45_jump.md R279). -/
def writesSp : Instr → Bool
  | .addSpE8 _ => true
  | .incRr p => decide (p = .sp)
  | .decRr p => decide (p = .sp)
  | .addAR _ => false
  | .addAMem => false
  | .addAD8 _ => false
  | .adcAR _ => false
  | .adcAMem => false
  | .adcAD8 _ => false
  | .subAR _ => false
  | .subAMem => false
  | .subAD8 _ => false
  | .sbcAR _ => false
  | .sbcAMem => false
  | .sbcAD8 _ => false
  | .andAR _ => false
  | .andAMem => false
  | .andAD8 _ => false
  | .xorAR _ => false
  | .xorAMem => false
  | .xorAD8 _ => false
  | .orAR _ => false
  | .orAMem => false
  | .orAD8 _ => false
  | .cpAR _ => false
  | .cpAMem => false
  | .cpAD8 _ => false
  | .incR _ => false
  | .incMem => false
  | .decR _ => false
  | .decMem => false
  | .cpl => false
  | .ccf => false
  | .scf => false
  | .addHlRr _ => false
  | .rlca => false
  | .rrca => false
  | .rla => false
  | .rra => false
  | .rlcR _ => false
  | .rlcMem => false
  | .rrcR _ => false
  | .rrcMem => false
  | .rlR _ => false
  | .rlMem => false
  | .rrR _ => false
  | .rrMem => false
  | .slaR _ => false
  | .slaMem => false
  | .sraR _ => false
  | .sraMem => false
  | .swapR _ => false
  | .swapMem => false
  | .srlR _ => false
  | .srlMem => false
  | .bitBR _ _ => false
  | .bitBMem _ => false
  | .resBR _ _ => false
  | .resBMem _ => false
  | .setBR _ _ => false
  | .setBMem _ => false
  | .jpA16 _ => false
  | .jpCcA16 _ _ => false
  | .jrE8 _ => false
  | .jrCcE8 _ _ => false
  | .jpHl => false

/-- The flags an instruction may write: those whose column in the table of 10_state.md R39 is not `-`. -/
def flagsWritten : Instr → Flags
  | .addAR _ => ⟨true, true, true, true⟩
  | .addAMem => ⟨true, true, true, true⟩
  | .addAD8 _ => ⟨true, true, true, true⟩
  | .adcAR _ => ⟨true, true, true, true⟩
  | .adcAMem => ⟨true, true, true, true⟩
  | .adcAD8 _ => ⟨true, true, true, true⟩
  | .subAR _ => ⟨true, true, true, true⟩
  | .subAMem => ⟨true, true, true, true⟩
  | .subAD8 _ => ⟨true, true, true, true⟩
  | .sbcAR _ => ⟨true, true, true, true⟩
  | .sbcAMem => ⟨true, true, true, true⟩
  | .sbcAD8 _ => ⟨true, true, true, true⟩
  | .andAR _ => ⟨true, true, true, true⟩
  | .andAMem => ⟨true, true, true, true⟩
  | .andAD8 _ => ⟨true, true, true, true⟩
  | .xorAR _ => ⟨true, true, true, true⟩
  | .xorAMem => ⟨true, true, true, true⟩
  | .xorAD8 _ => ⟨true, true, true, true⟩
  | .orAR _ => ⟨true, true, true, true⟩
  | .orAMem => ⟨true, true, true, true⟩
  | .orAD8 _ => ⟨true, true, true, true⟩
  | .cpAR _ => ⟨true, true, true, true⟩
  | .cpAMem => ⟨true, true, true, true⟩
  | .cpAD8 _ => ⟨true, true, true, true⟩
  | .addHlRr _ => ⟨true, true, true, true⟩
  | .addSpE8 _ => ⟨true, true, true, true⟩
  | .rrca => ⟨true, true, true, true⟩
  | .rra => ⟨true, true, true, true⟩
  | .rrcR _ => ⟨true, true, true, true⟩
  | .rrcMem => ⟨true, true, true, true⟩
  | .rrR _ => ⟨true, true, true, true⟩
  | .rrMem => ⟨true, true, true, true⟩
  | .slaR _ => ⟨true, true, true, true⟩
  | .slaMem => ⟨true, true, true, true⟩
  | .sraR _ => ⟨true, true, true, true⟩
  | .sraMem => ⟨true, true, true, true⟩
  | .swapR _ => ⟨true, true, true, true⟩
  | .swapMem => ⟨true, true, true, true⟩
  | .srlR _ => ⟨true, true, true, true⟩
  | .srlMem => ⟨true, true, true, true⟩
  | .incR _ => ⟨true, true, true, false⟩
  | .incMem => ⟨true, true, true, false⟩
  | .decR _ => ⟨true, true, true, false⟩
  | .decMem => ⟨true, true, true, false⟩
  | .cpl => ⟨true, true, true, false⟩
  | .bitBR _ _ => ⟨true, true, true, false⟩
  | .bitBMem _ => ⟨true, true, true, false⟩
  | .ccf => ⟨false, true, true, true⟩
  | .scf => ⟨false, true, true, true⟩
  | .rlca => ⟨false, true, true, true⟩
  | .rla => ⟨false, true, true, true⟩
  | .rlcR _ => ⟨false, true, true, true⟩
  | .rlcMem => ⟨false, true, true, true⟩
  | .rlR _ => ⟨false, true, true, true⟩
  | .rlMem => ⟨false, true, true, true⟩
  | .incRr _ => ⟨false, false, false, false⟩
  | .decRr _ => ⟨false, false, false, false⟩
  | .resBR _ _ => ⟨false, false, false, false⟩
  | .resBMem _ => ⟨false, false, false, false⟩
  | .setBR _ _ => ⟨false, false, false, false⟩
  | .setBMem _ => ⟨false, false, false, false⟩
  | .jpA16 _ => ⟨false, false, false, false⟩
  | .jpCcA16 _ _ => ⟨false, false, false, false⟩
  | .jrE8 _ => ⟨false, false, false, false⟩
  | .jrCcE8 _ _ => ⟨false, false, false, false⟩
  | .jpHl => ⟨false, false, false, false⟩

/-! ## What an instruction reads of F, and where it goes next -/

/-- The readers of F.C (10_state.md R39). -/
def readsCarry : Instr → Bool
  | .rla => true
  | .rra => true
  | .rlR _ => true
  | .rlMem => true
  | .rrR _ => true
  | .rrMem => true
  | .ccf => true
  | .jpCcA16 cc _ => decide (cc = .carry ∨ cc = .notCarry)
  | .jrCcE8 cc _ => decide (cc = .carry ∨ cc = .notCarry)
  | .addAR _ => false
  | .addAMem => false
  | .addAD8 _ => false
  | .adcAR _ => false
  | .adcAMem => false
  | .adcAD8 _ => false
  | .subAR _ => false
  | .subAMem => false
  | .subAD8 _ => false
  | .sbcAR _ => false
  | .sbcAMem => false
  | .sbcAD8 _ => false
  | .andAR _ => false
  | .andAMem => false
  | .andAD8 _ => false
  | .xorAR _ => false
  | .xorAMem => false
  | .xorAD8 _ => false
  | .orAR _ => false
  | .orAMem => false
  | .orAD8 _ => false
  | .cpAR _ => false
  | .cpAMem => false
  | .cpAD8 _ => false
  | .incR _ => false
  | .incMem => false
  | .decR _ => false
  | .decMem => false
  | .cpl => false
  | .scf => false
  | .addHlRr _ => false
  | .addSpE8 _ => false
  | .incRr _ => false
  | .decRr _ => false
  | .rlca => false
  | .rrca => false
  | .rlcR _ => false
  | .rlcMem => false
  | .rrcR _ => false
  | .rrcMem => false
  | .slaR _ => false
  | .slaMem => false
  | .sraR _ => false
  | .sraMem => false
  | .swapR _ => false
  | .swapMem => false
  | .srlR _ => false
  | .srlMem => false
  | .bitBR _ _ => false
  | .bitBMem _ => false
  | .resBR _ _ => false
  | .resBMem _ => false
  | .setBR _ _ => false
  | .setBMem _ => false
  | .jpA16 _ => false
  | .jrE8 _ => false
  | .jpHl => false

/-- The readers of F.Z (10_state.md R39). -/
def readsZero : Instr → Bool
  | .jpCcA16 cc _ => decide (cc = .zero ∨ cc = .notZero)
  | .jrCcE8 cc _ => decide (cc = .zero ∨ cc = .notZero)
  | .addAR _ => false
  | .addAMem => false
  | .addAD8 _ => false
  | .adcAR _ => false
  | .adcAMem => false
  | .adcAD8 _ => false
  | .subAR _ => false
  | .subAMem => false
  | .subAD8 _ => false
  | .sbcAR _ => false
  | .sbcAMem => false
  | .sbcAD8 _ => false
  | .andAR _ => false
  | .andAMem => false
  | .andAD8 _ => false
  | .xorAR _ => false
  | .xorAMem => false
  | .xorAD8 _ => false
  | .orAR _ => false
  | .orAMem => false
  | .orAD8 _ => false
  | .cpAR _ => false
  | .cpAMem => false
  | .cpAD8 _ => false
  | .incR _ => false
  | .incMem => false
  | .decR _ => false
  | .decMem => false
  | .cpl => false
  | .ccf => false
  | .scf => false
  | .addHlRr _ => false
  | .addSpE8 _ => false
  | .incRr _ => false
  | .decRr _ => false
  | .rlca => false
  | .rrca => false
  | .rla => false
  | .rra => false
  | .rlcR _ => false
  | .rlcMem => false
  | .rrcR _ => false
  | .rrcMem => false
  | .rlR _ => false
  | .rlMem => false
  | .rrR _ => false
  | .rrMem => false
  | .slaR _ => false
  | .slaMem => false
  | .sraR _ => false
  | .sraMem => false
  | .swapR _ => false
  | .swapMem => false
  | .srlR _ => false
  | .srlMem => false
  | .bitBR _ _ => false
  | .bitBMem _ => false
  | .resBR _ _ => false
  | .resBMem _ => false
  | .setBR _ _ => false
  | .setBMem _ => false
  | .jpA16 _ => false
  | .jrE8 _ => false
  | .jpHl => false

/-- The address a relative jump reaches when it is taken: pc +_16 2 +_16 sext_16(e8), with `sext_16` as 00_scope.md R9 gives it. -/
def relativeTarget (e8 : Byte) (s : State) : Word :=
  s.pc + 2 + (e8.setWidth 16 + if e8.getLsbD 7 then 0xFF00 else 0)

/-- The next pc of a decoded instruction: the table of 10_state.md R33. -/
def nextPc (i : Instr) (s : State) : Word :=
  match i with
  | .addAR _ => s.pc + 1
  | .addAMem => s.pc + 1
  | .adcAR _ => s.pc + 1
  | .adcAMem => s.pc + 1
  | .subAR _ => s.pc + 1
  | .subAMem => s.pc + 1
  | .sbcAR _ => s.pc + 1
  | .sbcAMem => s.pc + 1
  | .andAR _ => s.pc + 1
  | .andAMem => s.pc + 1
  | .xorAR _ => s.pc + 1
  | .xorAMem => s.pc + 1
  | .orAR _ => s.pc + 1
  | .orAMem => s.pc + 1
  | .cpAR _ => s.pc + 1
  | .cpAMem => s.pc + 1
  | .incR _ => s.pc + 1
  | .incMem => s.pc + 1
  | .decR _ => s.pc + 1
  | .decMem => s.pc + 1
  | .cpl => s.pc + 1
  | .ccf => s.pc + 1
  | .scf => s.pc + 1
  | .addHlRr _ => s.pc + 1
  | .incRr _ => s.pc + 1
  | .decRr _ => s.pc + 1
  | .rlca => s.pc + 1
  | .rrca => s.pc + 1
  | .rla => s.pc + 1
  | .rra => s.pc + 1
  | .addSpE8 _ => s.pc + 2
  | .addAD8 _ => s.pc + 2
  | .adcAD8 _ => s.pc + 2
  | .subAD8 _ => s.pc + 2
  | .sbcAD8 _ => s.pc + 2
  | .andAD8 _ => s.pc + 2
  | .xorAD8 _ => s.pc + 2
  | .orAD8 _ => s.pc + 2
  | .cpAD8 _ => s.pc + 2
  | .rlcR _ => s.pc + 2
  | .rlcMem => s.pc + 2
  | .rrcR _ => s.pc + 2
  | .rrcMem => s.pc + 2
  | .rlR _ => s.pc + 2
  | .rlMem => s.pc + 2
  | .rrR _ => s.pc + 2
  | .rrMem => s.pc + 2
  | .slaR _ => s.pc + 2
  | .slaMem => s.pc + 2
  | .sraR _ => s.pc + 2
  | .sraMem => s.pc + 2
  | .swapR _ => s.pc + 2
  | .swapMem => s.pc + 2
  | .srlR _ => s.pc + 2
  | .srlMem => s.pc + 2
  | .bitBR _ _ => s.pc + 2
  | .bitBMem _ => s.pc + 2
  | .resBR _ _ => s.pc + 2
  | .resBMem _ => s.pc + 2
  | .setBR _ _ => s.pc + 2
  | .setBMem _ => s.pc + 2
  | .jpA16 a16 => a16
  | .jpCcA16 cc a16 => if evaluateCondition s.f cc then a16 else s.pc + 3
  | .jrE8 e8 => relativeTarget e8 s
  | .jrCcE8 cc e8 => if evaluateCondition s.f cc then relativeTarget e8 s else s.pc + 2
  | .jpHl => getHl s

end Sys2Proof.Safety
end

