-- ==== Sys2Proof/Certificates/Slice0/Obligations.lean ====
section
/-! DEFINITION. The statements for the provers. Each docstring names the rule of spec/ it formalises. -/

open Sys2Proof Sys2Proof.Machine Sys2Proof.Safety

namespace Sys2Proof.Claims

/-- The opcode byte of `base` with a byte register in op[2:0] (30_encoding.md R88). -/
def opReg (base : Byte) (r : Reg8) : Byte := base + (reg8Code r).setWidth 8

/-- The opcode byte of `base` with a word target in op[5:4] (R88). -/
def opPair (base : Byte) (p : WordTarget) : Byte := base + 16 * (wordTargetCode p).setWidth 8

/-- The opcode byte of `base` with a condition in op[4:3] (R88). -/
def opCond (base : Byte) (cc : Cond) : Byte := base + 8 * (condCode cc).setWidth 8

/-- The 136 unprefixed bytes with no row, as R92 of 30_encoding.md lists them. -/
def unknownBytes : List Byte :=
  [0x00, 0x01, 0x02, 0x06, 0x08, 0x0A, 0x0E, 0x10, 0x11, 0x12, 0x16, 0x1A, 0x1E, 0x21, 0x22, 0x26, 0x27, 0x2A, 0x2E, 0x31, 0x32,
    0x36, 0x3A, 0x3E] ++
  (List.range 64).map (fun k => BitVec.ofNat 8 (0x40 + k)) ++
  [0xC0, 0xC1, 0xC4, 0xC5, 0xC7, 0xC8, 0xC9, 0xCC, 0xCD, 0xCF, 0xD0, 0xD1, 0xD3, 0xD4, 0xD5, 0xD7, 0xD8, 0xD9, 0xDB, 0xDC, 0xDD,
    0xDF] ++
  [0xE0, 0xE1, 0xE2, 0xE3, 0xE4, 0xE5, 0xE7, 0xEA, 0xEB, 0xEC, 0xED, 0xEF, 0xF0, 0xF1, 0xF2, 0xF3, 0xF4, 0xF5, 0xF7, 0xF8, 0xF9,
    0xFA, 0xFB, 0xFC, 0xFD, 0xFF]

/-- The first bytes of two-byte instructions (R84): the prefix, the d8 forms and the e8 forms. -/
def twoByteLeads : List Byte :=
  [0xCB, 0xC6, 0xCE, 0xD6, 0xDE, 0xE6, 0xEE, 0xF6, 0xFE, 0xE8, 0x18, 0x20, 0x28, 0x30, 0x38]

/-- The first bytes of three-byte instructions (R84): JP a16 and JP cc,a16. -/
def threeByteLeads : List Byte := [0xC3, 0xC2, 0xCA, 0xD2, 0xDA]

/-- The three forms of ALU operation number `o` on A: each has its encoding (`10 ooo rrr`, `11 ooo 110`), and answers, on every
state, the next state that `post` gives from the state, the operand and the instruction's length. -/
def aluForms (o : Byte) (viaReg : Reg8 → Instr) (viaMem : Instr) (viaImm : Byte → Instr)
    (post : State → Byte → Word → State) : Prop :=
  (∀ r b1 b2, decode (opReg (0x80 + 8 * o) r) b1 b2 = .ok (viaReg r)) ∧
  (∀ b1 b2, decode (0x86 + 8 * o) b1 b2 = .ok viaMem) ∧
  (∀ d8 b2, decode (0xC6 + 8 * o) d8 b2 = .ok (viaImm d8)) ∧
  (∀ r s, exec (viaReg r) s = .next (post s (readReg r s) 1)) ∧
  (∀ s, exec viaMem s = .next (post s (memRead s.mem (getHl s)) 1)) ∧
  (∀ d8 s, exec (viaImm d8) s = .next (post s d8 2))

/-- The two forms of an unprefixed INC or DEC of a byte target: each has its encoding (`00 rrr 10x`, base 0x04 or 0x05), and
answers, on every state, the next state that `post` gives. -/
def incDecForms (base : Byte) (viaReg : Reg8 → Instr) (viaMem : Instr) (post : ByteTarget → State → State) : Prop :=
  (∀ r b1 b2, decode (base + 8 * (reg8Code r).setWidth 8) b1 b2 = .ok (viaReg r)) ∧
  (∀ b1 b2, decode (base + 0x30) b1 b2 = .ok viaMem) ∧
  (∀ r s, exec (viaReg r) s = .next (post (.reg r) s)) ∧
  (∀ s, exec viaMem s = .next (post .memHl s))

/-- The two forms of a prefixed operation on a byte target: each has its encoding (0xCB, then `base` with the target in op[2:0]),
and answers, on every state, the next state that `post` gives. -/
def cbForms (base : Byte) (viaReg : Reg8 → Instr) (viaMem : Instr) (post : ByteTarget → State → State) : Prop :=
  (∀ r b2, decode 0xCB (opReg base r) b2 = .ok (viaReg r)) ∧
  (∀ b2, decode 0xCB (base + 6) b2 = .ok viaMem) ∧
  (∀ r s, exec (viaReg r) s = .next (post (.reg r) s)) ∧
  (∀ s, exec viaMem s = .next (post .memHl s))

end Sys2Proof.Claims

open Sys2Proof.Claims

/-- Reset gives every piece of state the value of the table of R40 (the default pc of reset: log entry 2) (derived: 10_state.md section 7, 70_reset_and_hazards.md section 1). -/
def Obligations.ResetSetsEveryField : Prop :=
  (∀ (resetPc : Word) (mem0 : Memory),
    let s := State.resetWith resetPc mem0
    (∀ r, readReg r s = 0x00) ∧ s.f = ⟨false, false, false, false⟩ ∧ flagsToByte s.f = 0x00 ∧ s.sp = 0x0000 ∧
    getAf s = 0x0000 ∧ getBc s = 0x0000 ∧ getDe s = 0x0000 ∧ getHl s = 0x0000 ∧
    s.pc = resetPc ∧ s.mem = mem0 ∧ s.status = .running) ∧
  State.reset.pc = 0x0000

/-- Reset memory lists nothing and reads 0x00 everywhere (the model's own choice, log entry 1) (derived: 70_reset_and_hazards.md section 1). -/
def Obligations.ResetMemoryReadsZero : Prop :=
  State.reset.mem = [] ∧ ∀ a : Word, memRead State.reset.mem a = 0x00

/-- F packs as Z N H C and four zero bits, and unpacks by masking (stated: R22, R23, R24). -/
def Obligations.FlagByteForm : Prop :=
  (∀ f : Flags, flagsToByte f =
    (if f.z then 0x80 else 0) + (if f.n then 0x40 else 0) + (if f.h then 0x20 else 0) + (if f.c then 0x10 else 0)) ∧
  (∀ b : Byte, flagsFromByte b = ⟨b.getLsbD 7, b.getLsbD 6, b.getLsbD 5, b.getLsbD 4⟩) ∧
  (∀ b : Byte, flagsToByte (flagsFromByte b) = b &&& 0xF0) ∧
  (∀ f : Flags, flagsFromByte (flagsToByte f) = f)

/-- Register pairs: big-endian packing, round trip, and writing a pair writes exactly its two registers (stated: R26, R27, R30). -/
def Obligations.PairsAreViewsHighByteFirst : Prop :=
  (∀ s, (getBc s).toNat = s.b.toNat * 256 + s.c.toNat ∧ (getDe s).toNat = s.d.toNat * 256 + s.e.toNat ∧
    (getHl s).toNat = s.h.toNat * 256 + s.l.toNat ∧ (getAf s).toNat = s.a.toNat * 256 + (flagsToByte s.f).toNat) ∧
  (∀ v s, getBc (setBc v s) = v ∧ getDe (setDe v s) = v ∧ getHl (setHl v s) = v ∧ getAf (setAf v s) = v &&& 0xFFF0) ∧
  (∀ (v : Word) (s : State), ∃ hi lo : Byte, v.toNat = hi.toNat * 256 + lo.toNat ∧
    setBc v s = { s with b := hi, c := lo } ∧ setDe v s = { s with d := hi, e := lo } ∧
    setHl v s = { s with h := hi, l := lo } ∧ setAf v s = { s with a := hi, f := flagsFromByte lo }) ∧
  (∀ (v : Byte) (s : State), (getBc (writeReg .b v s)).toNat = v.toNat * 256 + s.c.toNat ∧
    (getBc (writeReg .c v s)).toNat = s.b.toNat * 256 + v.toNat ∧
    (getDe (writeReg .d v s)).toNat = v.toNat * 256 + s.e.toNat ∧
    (getDe (writeReg .e v s)).toNat = s.d.toNat * 256 + v.toNat ∧
    (getHl (writeReg .h v s)).toNat = v.toNat * 256 + s.l.toNat ∧
    (getHl (writeReg .l v s)).toNat = s.h.toNat * 256 + v.toNat ∧
    (getAf (writeReg .a v s)).toNat = v.toNat * 256 + (flagsToByte s.f).toNat)

/-- Byte targets: what resolving and writing each of the nine does (R57 to R59; an immediate target holds the d8 that decoding read: log entry 6) (derived: 20_memory.md section 3). -/
def Obligations.ByteTargetsResolveAndWrite : Prop :=
  (∀ s, readReg .a s = s.a ∧ readReg .b s = s.b ∧ readReg .c s = s.c ∧ readReg .d s = s.d ∧ readReg .e s = s.e ∧
    readReg .h s = s.h ∧ readReg .l s = s.l) ∧
  (∀ r s, resolveByte (.reg r) s = (readReg r s, 1)) ∧
  (∀ s, resolveByte .memHl s = (memRead s.mem (getHl s), 1)) ∧
  (∀ d8 s, resolveByte (.imm d8) s = (d8, 2)) ∧
  (∀ (v : Byte) (s : State), writeByte (.reg .a) v s = { s with a := v } ∧ writeByte (.reg .b) v s = { s with b := v } ∧
    writeByte (.reg .c) v s = { s with c := v } ∧ writeByte (.reg .d) v s = { s with d := v } ∧
    writeByte (.reg .e) v s = { s with e := v } ∧ writeByte (.reg .h) v s = { s with h := v } ∧
    writeByte (.reg .l) v s = { s with l := v }) ∧
  (∀ (v : Byte) (s : State), { writeByte .memHl v s with mem := s.mem } = s ∧
    ∀ a : Word, memRead (writeByte .memHl v s).mem a = if a = getHl s then v else memRead s.mem a) ∧
  (∀ d8 v s, writeByte (.imm d8) v s = s) ∧
  (∀ t v s, (∀ d8, t ≠ .imm d8) → (resolveByte t (writeByte t v s)).1 = v)

/-- Word targets: resolving reads the pair, writing sets it, memory and flags untouched (stated: R62). -/
def Obligations.WordTargetsResolveAndWrite : Prop :=
  (∀ s, resolveWord .bc s = getBc s ∧ resolveWord .de s = getDe s ∧ resolveWord .hl s = getHl s ∧ resolveWord .sp s = s.sp) ∧
  (∀ (v : Word) (s : State), writeWord .bc v s = setBc v s ∧ writeWord .de v s = setDe v s ∧ writeWord .hl v s = setHl v s ∧
    writeWord .sp v s = { s with sp := v }) ∧
  (∀ t v s, resolveWord t (writeWord t v s) = v) ∧
  (∀ t v s, (writeWord t v s).mem = s.mem ∧ (writeWord t v s).f = s.f ∧ (writeWord t v s).a = s.a ∧
    (writeWord t v s).pc = s.pc ∧ (writeWord t v s).status = s.status)

/-- A canonical memory is determined by its reads (derived: 10_state.md section 4, 20_memory.md section 1). -/
def Obligations.EqualReadsEqualMemory : Prop :=
  ∀ m m' : Memory, m.wf = true → m'.wf = true → (∀ a : Word, memRead m a = memRead m' a) → m = m'

/-- A few words of each family decode to the instruction they stand for (derived: 30_encoding.md section 3, 95_test_vectors.md section 2). -/
def Obligations.SampleWordsDecode : Prop :=
  decode 0x80 0 0 = .ok (.addAR .b) ∧ decode 0xBE 0 0 = .ok .cpAMem ∧ decode 0xE6 0x0F 0 = .ok (.andAD8 0x0F) ∧
  decode 0x3C 0 0 = .ok (.incR .a) ∧ decode 0x35 0 0 = .ok .decMem ∧ decode 0x2F 0 0 = .ok .cpl ∧
  decode 0x39 0 0 = .ok (.addHlRr .sp) ∧ decode 0xE8 0xFF 0 = .ok (.addSpE8 0xFF) ∧ decode 0x1B 0 0 = .ok (.decRr .de) ∧
  decode 0x17 0 0 = .ok .rla ∧ decode 0xCB 0x12 0 = .ok (.rlR .d) ∧ decode 0xCB 0x36 0 = .ok .swapMem ∧
  decode 0xCB 0x7C 0 = .ok (.bitBR 7 .h) ∧ decode 0xCB 0x9F 0 = .ok (.resBR 3 .a) ∧ decode 0xCB 0xE6 0 = .ok (.setBMem 4) ∧
  decode 0xC3 0x99 0xBA = .ok (.jpA16 0xBA99) ∧ decode 0xDA 0x34 0x12 = .ok (.jpCcA16 .carry 0x1234) ∧
  decode 0x20 0xFC 0 = .ok (.jrCcE8 .notZero 0xFC) ∧ decode 0xE9 0 0 = .ok .jpHl

/-- The field codings r, o, p, c and the groups of the extended space (stated: R88). -/
def Obligations.FieldCodings : Prop :=
  (reg8OfCode 0 = some .b ∧ reg8OfCode 1 = some .c ∧ reg8OfCode 2 = some .d ∧ reg8OfCode 3 = some .e ∧
    reg8OfCode 4 = some .h ∧ reg8OfCode 5 = some .l ∧ reg8OfCode 6 = none ∧ memHlCode = 6 ∧ reg8OfCode 7 = some .a) ∧
  (∀ r, reg8OfCode (reg8Code r) = some r) ∧
  (∀ b1 b2, decode 0x80 b1 b2 = .ok (.addAR .b) ∧ decode 0x88 b1 b2 = .ok (.adcAR .b) ∧ decode 0x90 b1 b2 = .ok (.subAR .b) ∧
    decode 0x98 b1 b2 = .ok (.sbcAR .b) ∧ decode 0xA0 b1 b2 = .ok (.andAR .b) ∧ decode 0xA8 b1 b2 = .ok (.xorAR .b) ∧
    decode 0xB0 b1 b2 = .ok (.orAR .b) ∧ decode 0xB8 b1 b2 = .ok (.cpAR .b) ∧ decode 0x86 b1 b2 = .ok .addAMem) ∧
  (wordTargetOfCode 0 = .bc ∧ wordTargetOfCode 1 = .de ∧ wordTargetOfCode 2 = .hl ∧ wordTargetOfCode 3 = .sp) ∧
  (condOfCode 0 = .notZero ∧ condOfCode 1 = .zero ∧ condOfCode 2 = .notCarry ∧ condOfCode 3 = .carry) ∧
  (∀ b2, decode 0xCB 0x00 b2 = .ok (.rlcR .b) ∧ decode 0xCB 0x08 b2 = .ok (.rrcR .b) ∧ decode 0xCB 0x10 b2 = .ok (.rlR .b) ∧
    decode 0xCB 0x18 b2 = .ok (.rrR .b) ∧ decode 0xCB 0x20 b2 = .ok (.slaR .b) ∧ decode 0xCB 0x28 b2 = .ok (.sraR .b) ∧
    decode 0xCB 0x30 b2 = .ok (.swapR .b) ∧ decode 0xCB 0x38 b2 = .ok (.srlR .b) ∧ decode 0xCB 0x40 b2 = .ok (.bitBR 0 .b) ∧
    decode 0xCB 0x80 b2 = .ok (.resBR 0 .b) ∧ decode 0xCB 0xC0 b2 = .ok (.setBR 0 .b)) ∧
  (∀ a16 s, exec (.jpA16 a16) s = exec (.jpCcA16 .always a16) s) ∧ (∀ e8 s, exec (.jrE8 e8) s = exec (.jrCcE8 .always e8) s)

/-- Decoding the encoding of any well-formed instruction gives it back (derived: 30_encoding.md sections 2 and 3). -/
def Obligations.DecodeOfEncode : Prop :=
  ∀ (i : Instr) (rest : List Byte), i.wellFormed = true → decodeBytes (encode i ++ rest) = .ok (i, rest)

/-- What decodes is well formed, and its encoding is the bytes it was read from (derived: 30_encoding.md sections 2 and 3). -/
def Obligations.EncodeOfDecode : Prop :=
  ∀ (b0 b1 b2 : Byte) (i : Instr), decode b0 b1 b2 = .ok i →
    i.wellFormed = true ∧ encode i = [b0, b1, b2].take i.length

/-- At most one row of the opcode table matches any prefix mark and opcode byte (derived: 30_encoding.md section 1). -/
def Obligations.AtMostOneRowMatches : Prop :=
  (∀ op : Byte, (rowsOf false).countP (·.hits op) ≤ 1) ∧ (∀ op : Byte, (rowsOf true).countP (·.hits op) = 1) ∧
  (rowsOf false).countP (·.hits 0xCB) = 0

/-- Exactly the 136 listed unprefixed bytes decode to Unknown (the decode half of R92; that they fault is UnknownInstructionFaults) (derived: 30_encoding.md section 3). -/
def Obligations.UnprefixedUnknownBytes : Prop :=
  unknownBytes.length = 136 ∧
  (∀ b0 b1 b2 : Byte, b0 ∈ unknownBytes → decode b0 b1 b2 = .error ⟨false, b0⟩) ∧
  (∀ b0 b1 b2 : Byte, b0 ≠ 0xCB → b0 ∉ unknownBytes → ∃ i, decode b0 b1 b2 = .ok i) ∧
  (0x00 : Byte) ∈ unknownBytes

/-- Every byte after 0xCB decodes by default; one that ADMITTED withholds faults (stated: R94). -/
def Obligations.EveryPrefixedByteDecodes : Prop :=
  (∀ op b2 : Byte, ∃ i, decode 0xCB op b2 = .ok i) ∧
  (∀ (admitted : Bool → Byte → Bool) (op : Byte) (s : State), s.status = .running → memRead s.mem s.pc = 0xCB →
    memRead s.mem (s.pc + 1) = op → admitted true op = false →
    stepWith admitted s = .next { s with status := .fault true op })

/-- The first byte tells the length of an instruction (derived: 30_encoding.md section 1). -/
def Obligations.LengthFromFirstByte : Prop :=
  ∀ (b0 b1 b2 : Byte) (i : Instr), decode b0 b1 b2 = .ok i →
    i.length = if b0 ∈ twoByteLeads then 2 else if b0 ∈ threeByteLeads then 3 else 1

/-- A step of a running core whose bytes at pc decode runs that instruction and adds nothing to it (derived: 30_encoding.md section 1). -/
def Obligations.StepRunsTheDecodedInstruction : Prop :=
  ∀ (s : State) (i : Instr), s.status = .running →
    decode (memRead s.mem s.pc) (memRead s.mem (s.pc + 1)) (memRead s.mem (s.pc + 2)) = .ok i → step s = exec i s

/-- A step runs the well-formed instruction whose encoding lies at pc (derived: 30_encoding.md sections 1 and 2, 20_memory.md section 2). -/
def Obligations.StepRunsEncodedInstruction : Prop :=
  ∀ (s : State) (i : Instr), s.status = .running → i.wellFormed = true →
    (∀ k, k < (encode i).length → memRead s.mem (s.pc + BitVec.ofNat 16 k) = (encode i).getD k 0) → step s = exec i s

/-- Immediates are read at pc+1 and pc+2, a16 low byte first, none scaled (stated: R90). -/
def Obligations.ImmediatesFollowTheOpcode : Prop :=
  (∀ s : State, s.status = .running →
    let b0 := memRead s.mem s.pc
    let b1 := memRead s.mem (s.pc + 1)
    let a16 := BitVec.ofNat 16 ((memRead s.mem (s.pc + 2)).toNat * 256 + b1.toNat)
    (b0 = 0xC6 → step s = exec (.addAD8 b1) s) ∧ (b0 = 0xCE → step s = exec (.adcAD8 b1) s) ∧
    (b0 = 0xD6 → step s = exec (.subAD8 b1) s) ∧ (b0 = 0xDE → step s = exec (.sbcAD8 b1) s) ∧
    (b0 = 0xE6 → step s = exec (.andAD8 b1) s) ∧ (b0 = 0xEE → step s = exec (.xorAD8 b1) s) ∧
    (b0 = 0xF6 → step s = exec (.orAD8 b1) s) ∧ (b0 = 0xFE → step s = exec (.cpAD8 b1) s) ∧
    (b0 = 0xE8 → step s = exec (.addSpE8 b1) s) ∧ (b0 = 0x18 → step s = exec (.jrE8 b1) s) ∧
    (∀ cc, cc ≠ .always → b0 = opCond 0x20 cc → step s = exec (.jrCcE8 cc b1) s) ∧
    (b0 = 0xC3 → step s = exec (.jpA16 a16) s) ∧
    (∀ cc, cc ≠ .always → b0 = opCond 0xC2 cc → step s = exec (.jpCcA16 cc a16) s) ∧
    (∀ p, (b0 = opPair 0x09 p → step s = exec (.addHlRr p) s) ∧ (b0 = opPair 0x03 p → step s = exec (.incRr p) s) ∧
      (b0 = opPair 0x0B p → step s = exec (.decRr p) s))) ∧
  (∀ e8 : Byte, sext16 e8 = if e8.getLsbD 7 then e8.setWidth 16 + 0xFF00 else e8.setWidth 16)

/-- A decode failure sets status to Fault(prefixed, op) and changes nothing else (stated: R300). -/
def Obligations.UnknownInstructionFaults : Prop :=
  (∀ (admitted : Bool → Byte → Bool) (s : State) (u : Unknown), s.status = .running → fetchDecode admitted s = .error u →
    stepWith admitted s = .next { s with status := .fault u.prefixed u.op } ∧
    (u.prefixed = true → memRead s.mem s.pc = 0xCB ∧ memRead s.mem (s.pc + 1) = u.op) ∧
    (u.prefixed = false → memRead s.mem s.pc = u.op)) ∧
  (∀ s : State, s.status = .running → memRead s.mem s.pc ∈ unknownBytes →
    step s = .next { s with status := .fault false (memRead s.mem s.pc) })

/-- Stepping a faulted core leaves the state unchanged (stated: R314). -/
def Obligations.FaultedCoreStays : Prop :=
  ∀ (admitted : Bool → Byte → Bool) (s : State) (prefixed : Bool) (op : Byte), s.status = .fault prefixed op →
    stepWith admitted s = .next s

/-- No decoded instruction raises an exception (R301), and every step has a next state (R300, R314 and log entry 4) (derived: 60_exceptions.md sections 1 and 4). -/
def Obligations.DecodedInstructionsComplete : Prop :=
  (∀ (i : Instr) (s : State), ∃ t, exec i s = .next t ∧ t.status = s.status) ∧ (∀ s : State, ∃ t, step s = .next t)

/-- Status changes only by a decode failure of a running core (derived: 60_exceptions.md section 2). -/
def Obligations.OnlyADecodeFailureChangesStatus : Prop :=
  ∀ s t : State, step s = .next t → t.status ≠ s.status →
    s.status = .running ∧ ∃ u, fetchDecode Config.admitted s = .error u ∧ t = { s with status := .fault u.prefixed u.op }

/-- ADMITTED (R83) turns steps into faults and changes no admitted instruction (its default: log entry 3) (derived: 30_encoding.md section 1). -/
def Obligations.WithholdingOnlyFaults : Prop :=
  (∀ (admitted : Bool → Byte → Bool) (s : State), s.status = .running →
    let p := decide (memRead s.mem s.pc = 0xCB)
    let op := if p then memRead s.mem (s.pc + 1) else memRead s.mem s.pc
    (admitted p op = true → stepWith admitted s = step s) ∧
    (admitted p op = false → stepWith admitted s = .next { s with status := .fault p op })) ∧
  (∀ p op, Config.admitted p op = true)

/-- The invariant holds at reset (derived: 10_state.md sections 4 and 7, 60_exceptions.md section 1). -/
def Obligations.ResetMeetsTheInvariant : Prop :=
  Inv State.reset ∧ ∀ (resetPc : Word) (mem0 : Memory), mem0.wf = true → Inv (State.resetWith resetPc mem0)

/-- Every step keeps memory canonical and every fault precise (derived: 10_state.md section 4, 20_memory.md section 1, 60_exceptions.md sections 1 and 2). -/
def Obligations.EveryStepKeepsTheInvariant : Prop :=
  ∀ s t : State, Inv s → step s = .next t → Inv t

/-- JR -2 and a JP a16 to itself leave the state unchanged (derived: 70_reset_and_hazards.md section 3). -/
def Obligations.SelfLoopLeavesTheState : Prop :=
  (∀ s : State, s.status = .running → memRead s.mem s.pc = 0x18 → memRead s.mem (s.pc + 1) = 0xFE → step s = .next s) ∧
  (∀ s : State, s.status = .running → memRead s.mem s.pc = 0xC3 →
    s.pc.toNat = (memRead s.mem (s.pc + 2)).toNat * 256 + (memRead s.mem (s.pc + 1)).toNat → step s = .next s)

/-- An instruction that writes its own byte executes as fetched; the store is seen by the next fetch (R345, which the spec marks as derived) (derived: 70_reset_and_hazards.md section 2, 20_memory.md section 6). -/
def Obligations.StoreIntoOwnBytesTakesEffectNextStep : Prop :=
  (∀ s : State, s.status = .running → memRead s.mem s.pc = 0x34 → getHl s = s.pc →
    ∃ t, step s = .next t ∧ t.pc = s.pc + 1 ∧ ∀ a : Word, memRead t.mem a = if a = s.pc then 0x35 else memRead s.mem a) ∧
  (∀ (s t : State) (i : Instr) (a : Word), s.status = .running → fetchDecode Config.admitted s = .ok i →
    storeAddress i s = some a → step s = .next t →
    exec i s = .next t ∧
    let seen : Word → Byte := fun b => if b = a then memRead t.mem a else memRead s.mem b
    fetchDecode Config.admitted t = decode (seen t.pc) (seen (t.pc + 1)) (seen (t.pc + 2))) ∧
  (∀ s t : State, s.status = .running → memRead s.mem s.pc = 0x34 → getHl s = s.pc + 1 → step s = .next t →
    fetchDecode Config.admitted t =
      decode (memRead s.mem (s.pc + 1) + 1) (memRead s.mem (s.pc + 2)) (memRead s.mem (s.pc + 3)))

/-- ADD A,x: the sum to A, Z only on 0 + 0, H and C from the nibble and byte carry (stated: R122, R160, R161, R162). -/
def Obligations.AddOnA : Prop :=
  aluForms 0 .addAR .addAMem .addAD8 fun s v n =>
    { s with
      a := s.a + v
      f := { z := decide (s.a = 0 ∧ v = 0)
             n := false
             h := decide (s.a.toNat % 16 + v.toNat % 16 > 0xF)
             c := decide (s.a.toNat + v.toNat > 0xFF) }
      pc := s.pc + n }

/-- ADC A,x: the carry-in is the carry of A + v itself, flags those of ADD (stated: R123, R163, R164, R165). -/
def Obligations.AdcOnA : Prop :=
  aluForms 1 .adcAR .adcAMem .adcAD8 fun s v n =>
    { s with
      a := s.a + v + (if s.a.toNat + v.toNat > 255 then 1 else 0)
      f := { z := decide (s.a = 0 ∧ v = 0)
             n := false
             h := decide (s.a.toNat % 16 + v.toNat % 16 > 0xF)
             c := decide (s.a.toNat + v.toNat > 0xFF) }
      pc := s.pc + n }

/-- SUB A,x: the difference to A, Z on equality, H and C from the borrows (stated: R124, R166, R167, R168). -/
def Obligations.SubOnA : Prop :=
  aluForms 2 .subAR .subAMem .subAD8 fun s v n =>
    { s with
      a := s.a - v
      f := { z := decide (s.a = v)
             n := true
             h := decide (s.a.toNat % 16 < v.toNat % 16)
             c := decide (s.a.toNat < v.toNat) }
      pc := s.pc + n }

/-- SBC A,x: the borrow-in is the borrow of A - v itself, flags those of SUB (stated: R125, R169, R170, R171). -/
def Obligations.SbcOnA : Prop :=
  aluForms 3 .sbcAR .sbcAMem .sbcAD8 fun s v n =>
    { s with
      a := s.a - v - (if s.a.toNat < v.toNat then 1 else 0)
      f := { z := decide (s.a = v)
             n := true
             h := decide (s.a.toNat % 16 < v.toNat % 16)
             c := decide (s.a.toNat < v.toNat) }
      pc := s.pc + n }

/-- AND A,x: bitwise AND to A, H set (stated: R127, R172, R173, R174). -/
def Obligations.AndOnA : Prop :=
  aluForms 4 .andAR .andAMem .andAD8 fun s v n =>
    { s with
      a := s.a &&& v
      f := { z := decide (s.a &&& v = 0), n := false, h := true, c := false }
      pc := s.pc + n }

/-- XOR A,x: bitwise XOR to A (stated: R129, R175, R176, R177). -/
def Obligations.XorOnA : Prop :=
  aluForms 5 .xorAR .xorAMem .xorAD8 fun s v n =>
    { s with
      a := s.a ^^^ v
      f := { z := decide (s.a ^^^ v = 0), n := false, h := false, c := false }
      pc := s.pc + n }

/-- OR A,x: bitwise OR to A (stated: R128, R178, R179, R180). -/
def Obligations.OrOnA : Prop :=
  aluForms 6 .orAR .orAMem .orAD8 fun s v n =>
    { s with
      a := s.a ||| v
      f := { z := decide (s.a ||| v = 0), n := false, h := false, c := false }
      pc := s.pc + n }

/-- CP A,x: the flags of A - v, A not written (stated: R181, R182, R183). -/
def Obligations.CpOnA : Prop :=
  aluForms 7 .cpAR .cpAMem .cpAD8 fun s v n =>
    { s with
      f := { z := decide (s.a = v)
             n := true
             h := decide (s.a.toNat % 16 < v.toNat % 16)
             c := decide (s.a.toNat < v.toNat) }
      pc := s.pc + n }

/-- INC r and INC (HL): plus one, C unchanged (stated: R144, R184, R185). -/
def Obligations.IncByte : Prop :=
  incDecForms 0x04 .incR .incMem fun t s =>
    let v := (resolveByte t s).1
    { writeByte t (v + 1) s with
      f := { z := decide (v = 0xFF), n := false, h := decide (v.toNat % 16 = 0xF), c := s.f.c }
      pc := s.pc + 1 }

/-- DEC r and DEC (HL): minus one, C unchanged (stated: R145, R186, R187). -/
def Obligations.DecByte : Prop :=
  incDecForms 0x05 .decR .decMem fun t s =>
    let v := (resolveByte t s).1
    { writeByte t (v - 1) s with
      f := { z := decide (v = 0x01), n := true, h := decide (v.toNat % 16 = 0), c := s.f.c }
      pc := s.pc + 1 }

/-- CPL complements A; CCF inverts and SCF sets the carry (stated: R188, R189, R190). -/
def Obligations.CplCcfScf : Prop :=
  (∀ b1 b2, decode 0x2F b1 b2 = .ok .cpl ∧ decode 0x3F b1 b2 = .ok .ccf ∧ decode 0x37 b1 b2 = .ok .scf) ∧
  (∀ s, exec .cpl s = .next { s with
    a := 0xFF - s.a, f := { z := decide (s.a = 0xFF), n := true, h := true, c := s.f.c }, pc := s.pc + 1 }) ∧
  (∀ s, exec .ccf s = .next { s with f := { z := s.f.z, n := false, h := false, c := !s.f.c }, pc := s.pc + 1 }) ∧
  (∀ s, exec .scf s = .next { s with f := { z := s.f.z, n := false, h := false, c := true }, pc := s.pc + 1 })

/-- ADD HL,rr: the 16-bit sum to HL, Z only on 0 + 0, H from bit 11, C from bit 15 (stated: R126, R200). -/
def Obligations.AddHlPair : Prop :=
  (∀ p b1 b2, decode (opPair 0x09 p) b1 b2 = .ok (.addHlRr p)) ∧
  (∀ p s, let v := resolveWord p s
    exec (.addHlRr p) s = .next { setHl (getHl s + v) s with
      f := { z := decide (getHl s = 0 ∧ v = 0)
             n := false
             h := decide ((getHl s).toNat % 4096 + v.toNat % 4096 > 0xFFF)
             c := decide ((getHl s).toNat + v.toNat > 0xFFFF) }
      pc := s.pc + 1 })

/-- ADD SP,e8: SP plus the sign-extended displacement, Z cleared (stated: R201). -/
def Obligations.AddSpDisplacement : Prop :=
  (∀ e8 b2, decode 0xE8 e8 b2 = .ok (.addSpE8 e8)) ∧
  (∀ (e8 : Byte) (s : State), let e : Word := e8.setWidth 16 + if e8.getLsbD 7 then 0xFF00 else 0
    exec (.addSpE8 e8) s = .next { s with
      sp := s.sp + e
      f := { z := false
             n := false
             h := decide (s.sp.toNat % 4096 + e.toNat % 4096 > 0xFFF)
             c := decide (s.sp.toNat + e.toNat > 0xFFFF) }
      pc := s.pc + 2 }) ∧
  (∀ (e8 : Byte) (s t : State), e8.getLsbD 7 = true → exec (.addSpE8 e8) s = .next t →
    (t.f.c = true ↔ 0 ≤ (s.sp.toNat : Int) + e8.toInt))

/-- INC rr and DEC rr: plus or minus one, no flag written (stated: R146, R202, R203). -/
def Obligations.IncDecPair : Prop :=
  (∀ p b1 b2, decode (opPair 0x03 p) b1 b2 = .ok (.incRr p) ∧ decode (opPair 0x0B p) b1 b2 = .ok (.decRr p)) ∧
  (∀ p s, exec (.incRr p) s = .next { writeWord p (resolveWord p s + 1) s with pc := s.pc + 1 }) ∧
  (∀ p s, exec (.decRr p) s = .next { writeWord p (resolveWord p s - 1) s with pc := s.pc + 1 })

/-- RLCA, RRCA, RLA, RRA: A rotated, Z kept by the left and cleared by the right rotates (stated: R220, R221, R222, R223). -/
def Obligations.RotatesOfA : Prop :=
  (∀ b1 b2, decode 0x07 b1 b2 = .ok .rlca ∧ decode 0x0F b1 b2 = .ok .rrca ∧ decode 0x17 b1 b2 = .ok .rla ∧
    decode 0x1F b1 b2 = .ok .rra) ∧
  (∀ s, exec .rlca s = .next { s with
    a := s.a.rotateLeft 1, f := { z := s.f.z, n := false, h := false, c := s.a.getLsbD 7 }, pc := s.pc + 1 }) ∧
  (∀ s, exec .rrca s = .next { s with
    a := s.a.rotateRight 1, f := { z := false, n := false, h := false, c := s.a.getLsbD 0 }, pc := s.pc + 1 }) ∧
  (∀ s, exec .rla s = .next { s with
    a := s.a.rotateLeft 1 ||| (if s.f.c then 0x01 else 0), f := { z := s.f.z, n := false, h := false, c := s.a.getLsbD 7 }, pc := s.pc + 1 }) ∧
  (∀ s, exec .rra s = .next { s with
    a := s.a.rotateRight 1 ||| (if s.f.c then 0x80 else 0), f := { z := false, n := false, h := false, c := s.a.getLsbD 0 }, pc := s.pc + 1 })

/-- RLC and RL of r and (HL): rotated left, Z unchanged (stated: R224, R225, R228, R229). -/
def Obligations.RotateLeftForms : Prop :=
  (cbForms 0x00 .rlcR .rlcMem fun t s =>
    let v := (resolveByte t s).1
    { writeByte t (v.rotateLeft 1) s with
      f := { z := s.f.z, n := false, h := false, c := v.getLsbD 7 }
      pc := s.pc + 2 }) ∧
  (cbForms 0x10 .rlR .rlMem fun t s =>
    let v := (resolveByte t s).1
    { writeByte t (v.rotateLeft 1 ||| (if s.f.c then 0x01 else 0)) s with
      f := { z := s.f.z, n := false, h := false, c := v.getLsbD 7 }
      pc := s.pc + 2 })

/-- RRC and RR of r and (HL): rotated right, Z cleared (stated: R226, R227, R230, R231). -/
def Obligations.RotateRightForms : Prop :=
  (cbForms 0x08 .rrcR .rrcMem fun t s =>
    let v := (resolveByte t s).1
    { writeByte t (v.rotateRight 1) s with
      f := { z := false, n := false, h := false, c := v.getLsbD 0 }
      pc := s.pc + 2 }) ∧
  (cbForms 0x18 .rrR .rrMem fun t s =>
    let v := (resolveByte t s).1
    { writeByte t (v.rotateRight 1 ||| (if s.f.c then 0x80 else 0)) s with
      f := { z := false, n := false, h := false, c := v.getLsbD 0 }
      pc := s.pc + 2 })

/-- SLA, SRA and SRL of r and (HL) (stated: R232, R233, R234, R235, R238, R239). -/
def Obligations.ShiftForms : Prop :=
  (cbForms 0x20 .slaR .slaMem fun t s =>
    let v := (resolveByte t s).1
    { writeByte t (BitVec.ofNat 8 (v.toNat * 2)) s with
      f := { z := decide (v.toNat % 128 = 0), n := false, h := false, c := v.getLsbD 7 }
      pc := s.pc + 2 }) ∧
  (cbForms 0x28 .sraR .sraMem fun t s =>
    let v := (resolveByte t s).1
    { writeByte t (v.sshiftRight 1) s with
      f := { z := decide (v.toNat < 2), n := false, h := false, c := v.getLsbD 0 }
      pc := s.pc + 2 }) ∧
  (cbForms 0x38 .srlR .srlMem fun t s =>
    let v := (resolveByte t s).1
    { writeByte t (BitVec.ofNat 8 (v.toNat / 2)) s with
      f := { z := decide (v.toNat < 2), n := false, h := false, c := v.getLsbD 0 }
      pc := s.pc + 2 })

/-- SWAP of r and (HL): the nibbles exchanged, twice is the identity (stated: R138, R236, R237). -/
def Obligations.SwapForms : Prop :=
  (cbForms 0x30 .swapR .swapMem fun t s =>
    let v := (resolveByte t s).1
    { writeByte t (BitVec.ofNat 8 (v.toNat % 16 * 16 + v.toNat / 16)) s with
      f := { z := decide (v = 0), n := false, h := false, c := false }
      pc := s.pc + 2 }) ∧
  (∀ (v : Byte) (f g : Flags), (aluSwapNibbles (aluSwapNibbles v f).1 g).1 = v)

/-- BIT b of r and (HL): Z is the inverse of the bit, nothing but F and pc changes (stated: R250, R251). -/
def Obligations.BitTestForms : Prop :=
  ∀ b : Byte, b.toNat ≤ 7 →
    (∀ r b2, decode 0xCB (opReg (0x40 + 8 * b) r) b2 = .ok (.bitBR b r)) ∧
    (∀ b2, decode 0xCB (0x46 + 8 * b) b2 = .ok (.bitBMem b)) ∧
    (∀ r s, exec (.bitBR b r) s = .next { s with
      f := { z := !(readReg r s).getLsbD b.toNat, n := false, h := true, c := s.f.c }, pc := s.pc + 2 }) ∧
    (∀ s, exec (.bitBMem b) s = .next { s with
      f := { z := !(memRead s.mem (getHl s)).getLsbD b.toNat, n := false, h := true, c := s.f.c }, pc := s.pc + 2 })

/-- RES b and SET b of r and (HL): one bit of the target, no flag (stated: R252, R253, R254, R255). -/
def Obligations.BitChangeForms : Prop :=
  ∀ b : Byte, b.toNat ≤ 7 →
    (∀ r b2, decode 0xCB (opReg (0x80 + 8 * b) r) b2 = .ok (.resBR b r) ∧
      decode 0xCB (opReg (0xC0 + 8 * b) r) b2 = .ok (.setBR b r)) ∧
    (∀ b2, decode 0xCB (0x86 + 8 * b) b2 = .ok (.resBMem b) ∧ decode 0xCB (0xC6 + 8 * b) b2 = .ok (.setBMem b)) ∧
    ∃ res set : Byte → Byte,
      (∀ v j, j < 8 → (res v).getLsbD j = (v.getLsbD j && decide (j ≠ b.toNat)) ∧
        (set v).getLsbD j = (v.getLsbD j || decide (j = b.toNat))) ∧
      (∀ r s, exec (.resBR b r) s = .next { writeReg r (res (readReg r s)) s with pc := s.pc + 2 }) ∧
      (∀ s, exec (.resBMem b) s = .next { writeByte .memHl (res (memRead s.mem (getHl s))) s with pc := s.pc + 2 }) ∧
      (∀ r s, exec (.setBR b r) s = .next { writeReg r (set (readReg r s)) s with pc := s.pc + 2 }) ∧
      (∀ s, exec (.setBMem b) s = .next { writeByte .memHl (set (memRead s.mem (getHl s))) s with pc := s.pc + 2 })

/-- A bit index builds exactly in 0 to 7; out of range the primitives do nothing (R139, R143, R302), and BIT, RES and SET change only pc (log entry 7) (derived: 40_alu_primitives.md section 5, 60_exceptions.md section 1). -/
def Obligations.BitIndexOutOfRangeDoesNothing : Prop :=
  (∀ idx : Byte, (buildBitIndex idx).isSome = true ↔ idx.toNat ≤ 7) ∧
  (∀ (idx v : Byte) (f : Flags), 7 < idx.toNat → aluBitCheck v idx f = f ∧ aluBitSet v idx = v ∧ aluBitReset v idx = v) ∧
  (∀ (b : Byte) (r : Reg8) (s : State), 7 < b.toNat → exec (.bitBR b r) s = .next { s with pc := s.pc + 2 } ∧
    exec (.bitBMem b) s = .next { s with pc := s.pc + 2 } ∧ exec (.resBR b r) s = .next { s with pc := s.pc + 2 } ∧
    exec (.setBR b r) s = .next { s with pc := s.pc + 2 }) ∧
  (∀ (b : Byte) (s : State), 7 < b.toNat → ∃ t, exec (.resBMem b) s = .next t ∧ exec (.setBMem b) s = .next t ∧
    { t with mem := s.mem } = { s with pc := s.pc + 2 } ∧ ∀ a : Word, memRead t.mem a = memRead s.mem a) ∧
  (∀ (b0 b1 b2 : Byte) (i : Instr), decode b0 b1 b2 = .ok i → i.wellFormed = true)

/-- The five condition codes (derived: 45_jump.md section 1). -/
def Obligations.ConditionEvaluation : Prop :=
  (∀ f : Flags, (evaluateCondition f .notZero = true ↔ f.z = false) ∧ (evaluateCondition f .zero = true ↔ f.z = true) ∧
    (evaluateCondition f .notCarry = true ↔ f.c = false) ∧ (evaluateCondition f .carry = true ↔ f.c = true) ∧
    evaluateCondition f .always = true) ∧
  (∀ (f : Flags) (n h : Bool) (t : Cond), evaluateCondition { f with n := n, h := h } t = evaluateCondition f t)

/-- JP a16, JP cc,a16 and JP HL (stated: R271, R273, R274, R277). -/
def Obligations.AbsoluteJumps : Prop :=
  (∀ lo hi : Byte, decode 0xC3 lo hi = .ok (.jpA16 (BitVec.ofNat 16 (hi.toNat * 256 + lo.toNat)))) ∧
  (∀ (cc : Cond) (lo hi : Byte), cc ≠ .always →
    decode (opCond 0xC2 cc) lo hi = .ok (.jpCcA16 cc (BitVec.ofNat 16 (hi.toNat * 256 + lo.toNat)))) ∧
  (∀ b1 b2, decode 0xE9 b1 b2 = .ok .jpHl) ∧
  (∀ a16 s, exec (.jpA16 a16) s = .next { s with pc := a16 }) ∧
  (∀ (cc : Cond) (a16 : Word) (s : State), exec (.jpCcA16 cc a16) s =
    .next { s with pc := if evaluateCondition s.f cc then a16 else s.pc + 3 }) ∧
  (∀ s, exec .jpHl s = .next { s with pc := BitVec.ofNat 16 (s.h.toNat * 256 + s.l.toNat) })

/-- JR e8 and JR cc,e8 (stated: R272, R275, R276). -/
def Obligations.RelativeJumps : Prop :=
  (∀ e8 b2 : Byte, decode 0x18 e8 b2 = .ok (.jrE8 e8)) ∧
  (∀ (cc : Cond) (e8 b2 : Byte), cc ≠ .always → decode (opCond 0x20 cc) e8 b2 = .ok (.jrCcE8 cc e8)) ∧
  (∀ (e8 : Byte) (s : State), exec (.jrE8 e8) s = .next { s with pc := BitVec.ofInt 16 (s.pc.toNat + 2 + e8.toInt) }) ∧
  (∀ (cc : Cond) (e8 : Byte) (s : State), exec (.jrCcE8 cc e8) s =
    .next { s with pc := if evaluateCondition s.f cc then BitVec.ofInt 16 (s.pc.toNat + 2 + e8.toInt) else s.pc + 2 })

/-- The next pc of every instruction is that of the pc table (R33, which the spec marks as derived) (derived: 10_state.md section 3). -/
def Obligations.NextPcTable : Prop :=
  (∀ (i : Instr) (s : State), ∃ t, exec i s = .next t ∧ t.pc = nextPc i s) ∧
  (∀ (s : State) (u : Unknown), s.status = .running → fetchDecode Config.admitted s = .error u → ∃ t, step s = .next t ∧ t.pc = s.pc)

/-- Frame: a byte register changes only if it is a destination of the instruction (derived: 10_state.md sections 1, 2 and 5). -/
def Obligations.ByteRegisterFrame : Prop :=
  ∀ (i : Instr) (s t : State) (r : Reg8), exec i s = .next t → r ∉ regsWritten i → readReg r t = readReg r s

/-- SP changes only by ADD SP,e8, INC SP and DEC SP, and addresses no memory (stated: R25). -/
def Obligations.StackPointerFrame : Prop :=
  (∀ (i : Instr) (s t : State), exec i s = .next t → writesSp i = false → t.sp = s.sp) ∧
  (∀ (i : Instr) (s t : State) (v : Word), exec i s = .next t → writesSp i = false → i ≠ .addHlRr .sp →
    exec i { s with sp := v } = .next { t with sp := v }) ∧
  (∀ (i : Instr) (s : State) (v : Word), (storeAddress i { s with sp := v }) = storeAddress i s)

/-- Frame: a flag changes only where the flag table names it (R39, which the spec marks as derived) (derived: 10_state.md section 6). -/
def Obligations.FlagFrame : Prop :=
  ∀ (i : Instr) (s t : State), exec i s = .next t →
    ((flagsWritten i).z = false → t.f.z = s.f.z) ∧ ((flagsWritten i).n = false → t.f.n = s.f.n) ∧
    ((flagsWritten i).h = false → t.f.h = s.f.h) ∧ ((flagsWritten i).c = false → t.f.c = s.f.c)

/-- Frame: memory changes only at the address an instruction stores to (derived: 10_state.md section 5, 20_memory.md sections 1 and 3). -/
def Obligations.MemoryFrame : Prop :=
  ∀ (i : Instr) (s t : State), exec i s = .next t →
    (∀ a : Word, storeAddress i s = some a → ∀ b : Word, b ≠ a → memRead t.mem b = memRead s.mem b) ∧
    (storeAddress i s = none → ∀ b : Word, memRead t.mem b = memRead s.mem b) ∧
    (∀ a : Word, storeAddress i s = some a → a = getHl s) ∧ t.status = s.status

/-- A step changes no byte of memory but the one at HL (derived: 20_memory.md section 1, 10_state.md section 5). -/
def Obligations.StepWritesAtMostOneByte : Prop :=
  ∀ s t : State, step s = .next t →
    (∀ a : Word, a ≠ getHl s → memRead t.mem a = memRead s.mem a) ∧
    ((∃ a : Word, memRead t.mem a ≠ memRead s.mem a) → s.status = .running)

/-- No instruction reads N or H; Z and C are read only by the listed readers (R39, which the spec marks as derived) (derived: 10_state.md section 6). -/
def Obligations.FlagReaders : Prop :=
  ∀ (i : Instr) (s : State),
    (∀ n h : Bool, ∃ t t', exec i s = .next t ∧ exec i { s with f := { s.f with n := n, h := h } } = .next t' ∧
      { t' with f := { t'.f with n := t.f.n, h := t.f.h } } = t ∧
      (t'.f.n = t.f.n ∨ t.f.n = s.f.n ∧ t'.f.n = n) ∧ (t'.f.h = t.f.h ∨ t.f.h = s.f.h ∧ t'.f.h = h)) ∧
    (readsCarry i = false → ∀ c : Bool, ∃ t t', exec i s = .next t ∧ exec i { s with f := { s.f with c := c } } = .next t' ∧
      { t' with f := { t'.f with c := t.f.c } } = t ∧ (t'.f.c = t.f.c ∨ t.f.c = s.f.c ∧ t'.f.c = c)) ∧
    (readsZero i = false → ∀ z : Bool, ∃ t t', exec i s = .next t ∧ exec i { s with f := { s.f with z := z } } = .next t' ∧
      { t' with f := { t'.f with z := t.f.z } } = t ∧ (t'.f.z = t.f.z ∨ t.f.z = s.f.z ∧ t'.f.z = z))

/-- RL then RR restores the value exactly when the starting carry is 0 or bit 7 is 1 (derived: 90_conflicts.md C2, 40_alu_primitives.md section 4). -/
def Obligations.ThroughCarryRoundTrip : Prop :=
  ∀ (v : Byte) (f g : Flags), g.c = f.c ∨ g = (aluRotateLeftThroughCarry v f).2 →
    let w := (aluRotateRightThroughCarry (aluRotateLeftThroughCarry v f).1 g).1
    w = v ||| (if f.c then 0x80 else 0) ∧ (w = v ↔ f.c = false ∨ v.getLsbD 7 = true)
end

