-- ==== Sys2Proof/Laws/Decode.lean ====
section
/-! SUPPORT. The field codings of R88 (30_encoding.md) are inverse to each other, and what a decode failure reports. -/

namespace Sys2Proof

@[simp] theorem reg8OfCode_reg8Code (r : Reg8) : reg8OfCode (reg8Code r) = some r := by cases r <;> rfl
@[simp] theorem wordTargetOfCode_code (p : WordTarget) : wordTargetOfCode (wordTargetCode p) = p := by cases p <;> rfl

theorem condOfCode_condCode {cc : Cond} (h : condOk cc = true) : condOfCode (condCode cc) = cc := by
  cases cc <;> first | rfl | exact absurd h (by decide)

theorem reg8Code_ne_memHl (r : Reg8) : reg8Code r ≠ memHlCode := by cases r <;> decide

/-- A decode failure of the extended or the plain space reports its own prefix mark and byte (60_exceptions.md R300). -/
theorem decodeOp_error {admitted : Bool → Byte → Bool} {prefixed : Bool} {op imm0 imm1 : Byte} {u : Unknown}
    (h : decodeOp admitted prefixed op imm0 imm1 = .error u) : u = ⟨prefixed, op⟩ := by
  unfold decodeOp at h
  split at h
  · split at h
    · cases h
    · exact (Except.error.inj h).symm
  · exact (Except.error.inj h).symm

end Sys2Proof
end

