-- ==== Sys2Proof/Laws/Flags.lean ====
section
/-! SUPPORT. The derived laws of the ALU primitives: the sum or difference as a bit vector, and when Z is set. -/

namespace Sys2Proof.Machine

theorem aluAdd_fst (l r : Byte) (f : Flags) : (aluAdd l r f).1 = l + r := by
  apply BitVec.eq_of_toNat_eq; simp [aluAdd, BitVec.toNat_add]

/-- Z after `add` is set only on 0 + 0 (40_alu_primitives.md R122). -/
theorem aluAdd_z (l r : Byte) (f : Flags) : (aluAdd l r f).2.z = decide (l = 0 ∧ r = 0) := by
  have hl : l = 0 ↔ l.toNat = 0 := by rw [← BitVec.toNat_inj]; rfl
  have hr : r = 0 ↔ r.toNat = 0 := by rw [← BitVec.toNat_inj]; rfl
  simp only [aluAdd, decide_eq_decide, hl, hr]
  omega

/-- Z after `sub` is set exactly on equal operands (R124). -/
theorem aluSub_z (l r : Byte) (f : Flags) : (aluSub l r f).2.z = decide (l = r) := by
  have h0 : l - r = 0 ↔ l = r := by
    constructor
    · intro h; exact (BitVec.sub_eq_iff_eq_add.mp h).trans (BitVec.zero_add r)
    · intro h; simp [h]
  by_cases h : l = r
  · subst h; simp [aluSub]
  · simp [aluSub, h]
    intro h'; exact absurd (h0.mp h') h

theorem aluAddHl_fst (l r : Word) (f : Flags) : (aluAddHl l r f).1 = l + r := by
  apply BitVec.eq_of_toNat_eq; simp [aluAddHl, BitVec.toNat_add]

/-- Z after `add_hl` is set only on 0 + 0 (R126). -/
theorem aluAddHl_z (l r : Word) (f : Flags) : (aluAddHl l r f).2.z = decide (l = 0 ∧ r = 0) := by
  have hl : l = 0 ↔ l.toNat = 0 := by rw [← BitVec.toNat_inj]; rfl
  have hr : r = 0 ↔ r.toNat = 0 := by rw [← BitVec.toNat_inj]; rfl
  simp only [aluAddHl, decide_eq_decide, hl, hr]
  omega

/-- `add_c` reads no flag (R123). -/
theorem aluAddC_flag_free (l r : Byte) (f g : Flags) : aluAddC l r f = aluAddC l r g := rfl

/-- `sub_c` reads no flag (R125). -/
theorem aluSubC_flag_free (l r : Byte) (f g : Flags) : aluSubC l r f = aluSubC l r g := rfl

theorem buildBitIndex_of_le {idx : Byte} (h : idx.toNat ≤ 7) : buildBitIndex idx = some ⟨idx.toNat, by omega⟩ := by
  have : idx.toNat < 8 := by omega
  simp [buildBitIndex, this]

theorem buildBitIndex_of_gt {idx : Byte} (h : 7 < idx.toNat) : buildBitIndex idx = none := by
  have : ¬ idx.toNat < 8 := by omega
  simp only [buildBitIndex, this, dite_false]

end Sys2Proof.Machine
end

