-- ==== Sys2Proof/Laws/Memory.lean ====
section
/-! SUPPORT. The bus (20_memory.md R51): a read after a write, and the canonical form that every memory operation keeps. -/

namespace Sys2Proof.Machine

/-! ## Read after write -/

theorem memLookup_memErase (m : Memory) (k j : Nat) :
    memLookup (memErase m k) j = if j = k then Config.unlistedByte else memLookup m j := by
  induction m with
  | nil => simp [memErase, memLookup]
  | cons cell m ih =>
    by_cases hk : cell.1 = k
    · have : memErase (cell :: m) k = memErase m k := by simp [memErase, hk]
      rw [this, ih]
      by_cases hj : j = k
      · simp [hj]
      · have : ¬ cell.1 = j := by omega
        simp [hj, memLookup, this]
    · have : memErase (cell :: m) k = cell :: memErase m k := by simp [memErase, hk]
      rw [this]
      by_cases hj : cell.1 = j
      · have : ¬ j = k := by omega
        simp [memLookup, hj, this]
      · simp only [memLookup, if_neg hj, ih]

theorem memLookup_memInsert (m : Memory) (k j : Nat) (v : Byte) (hfresh : ∀ cell ∈ m, cell.1 ≠ k) :
    memLookup (memInsert m k v) j = if j = k then v else memLookup m j := by
  induction m with
  | nil => simp [memInsert, memLookup, eq_comm]
  | cons cell m ih =>
    have hcell : cell.1 ≠ k := hfresh cell (by simp)
    have ih := ih fun c hc => hfresh c (by simp [hc])
    by_cases hlt : k < cell.1
    · simp [memInsert, hlt, memLookup, eq_comm]
    · by_cases hj : cell.1 = j
      · have : ¬ j = k := by omega
        simp only [memInsert, if_neg hlt, memLookup, if_pos hj, if_neg this]
      · simp only [memInsert, if_neg hlt, memLookup, if_neg hj, ih]

theorem memErase_fresh (m : Memory) (k : Nat) : ∀ cell ∈ memErase m k, cell.1 ≠ k := by
  intro cell h
  simpa using (List.mem_filter.mp h).2

/-- Everything a write does to reads (R51): the written address reads as the value, every other address as before. -/
theorem memRead_memWrite (m : Memory) (a b : Word) (v : Byte) :
    memRead (memWrite m a v) b = if b = a then v else memRead m b := by
  have key : (b.toNat = a.toNat) ↔ b = a := BitVec.toNat_inj
  unfold memWrite memRead
  split
  · next hv => simp only [memLookup_memErase, key, hv]
  · simp only [memLookup_memInsert _ _ _ _ (memErase_fresh m a.toNat), memLookup_memErase, key]
    split <;> rfl

@[simp] theorem memRead_memWrite_same (m : Memory) (a : Word) (v : Byte) : memRead (memWrite m a v) a = v := by
  simp [memRead_memWrite]

theorem memRead_memWrite_ne (m : Memory) {a b : Word} (h : b ≠ a) (v : Byte) :
    memRead (memWrite m a v) b = memRead m b := by
  simp [memRead_memWrite, h]

/-! ## The canonical form -/

theorem wfFrom_mono {lo lo' : Nat} (hle : lo ≤ lo') {m : Memory} (h : Memory.wfFrom lo' m = true) :
    Memory.wfFrom lo m = true := by
  cases m with
  | nil => rfl
  | cons cell m =>
    simp only [Memory.wfFrom, Bool.and_eq_true, decide_eq_true_eq] at h ⊢
    exact ⟨⟨⟨by omega, h.1.1.2⟩, h.1.2⟩, h.2⟩

theorem wfFrom_memErase (k : Nat) (m : Memory) : ∀ {lo : Nat}, Memory.wfFrom lo m = true →
    Memory.wfFrom lo (memErase m k) = true := by
  induction m with
  | nil => intro lo h; exact h
  | cons cell m ih =>
    intro lo h
    simp only [Memory.wfFrom, Bool.and_eq_true, decide_eq_true_eq] at h
    obtain ⟨⟨⟨hlo, hk⟩, hv⟩, hrest⟩ := h
    by_cases hc : cell.1 = k
    · have : memErase (cell :: m) k = memErase m k := by simp [memErase, hc]
      rw [this]
      exact wfFrom_mono (by omega) (ih hrest)
    · have : memErase (cell :: m) k = cell :: memErase m k := by simp [memErase, hc]
      simp only [this, Memory.wfFrom, Bool.and_eq_true, decide_eq_true_eq]
      exact ⟨⟨⟨hlo, hk⟩, hv⟩, ih hrest⟩

theorem wfFrom_memInsert {k : Nat} (hk : k < 65536) {v : Byte} (hv : v ≠ Config.unlistedByte) (m : Memory) :
    ∀ {lo : Nat}, lo ≤ k → (∀ cell ∈ m, cell.1 ≠ k) → Memory.wfFrom lo m = true →
      Memory.wfFrom lo (memInsert m k v) = true := by
  induction m with
  | nil => intro lo hlo _ _; simp [memInsert, Memory.wfFrom, hlo, hk, hv]
  | cons cell m ih =>
    intro lo hlo hfresh h
    have hne : cell.1 ≠ k := hfresh cell (by simp)
    simp only [Memory.wfFrom, Bool.and_eq_true, decide_eq_true_eq] at h
    obtain ⟨⟨⟨h1, h2⟩, h3⟩, hrest⟩ := h
    by_cases hlt : k < cell.1
    · simp only [memInsert, if_pos hlt, Memory.wfFrom, Bool.and_eq_true, decide_eq_true_eq]
      exact ⟨⟨⟨hlo, hk⟩, hv⟩, ⟨⟨⟨by omega, h2⟩, h3⟩, hrest⟩⟩
    · simp only [memInsert, if_neg hlt, Memory.wfFrom, Bool.and_eq_true, decide_eq_true_eq]
      exact ⟨⟨⟨h1, h2⟩, h3⟩, ih (by omega) (fun c hc => hfresh c (by simp [hc])) hrest⟩

/-- A write keeps the canonical form. -/
theorem memWrite_wf {m : Memory} (h : m.wf = true) (a : Word) (v : Byte) : (memWrite m a v).wf = true := by
  unfold memWrite Memory.wf
  split
  · exact wfFrom_memErase _ _ h
  · next hv => exact wfFrom_memInsert a.isLt hv _ (Nat.zero_le _) (memErase_fresh m a.toNat) (wfFrom_memErase _ _ h)

theorem memWriteBytes_wf (bytes : List Byte) : ∀ {m : Memory} (_ : m.wf = true) (a : Word),
    (memWriteBytes m a bytes).wf = true := by
  induction bytes with
  | nil => intro m h a; exact h
  | cons v bytes ih => intro m h a; exact ih (memWrite_wf h a v) (a + 1)

theorem reset_mem_wf : State.reset.mem.wf = true := rfl

/-- Writing a byte target keeps the canonical form. -/
theorem writeByte_mem_wf {s : State} (h : s.mem.wf = true) (t : ByteTarget) (v : Byte) :
    (writeByte t v s).mem.wf = true := by
  cases t with
  | reg r => cases r <;> exact h
  | memHl => exact memWrite_wf h _ _
  | imm d => exact h

end Sys2Proof.Machine
end

