-- ==== Sys2Proof/Laws/State.lean ====
section
/-! SUPPORT. One lemma per field per update of State, so that no proof unfolds a record update. -/

namespace Sys2Proof.Machine

@[simp] theorem setPc_a (t : Word) (s : State) : (setPc t s).a = s.a := rfl
@[simp] theorem setPc_b (t : Word) (s : State) : (setPc t s).b = s.b := rfl
@[simp] theorem setPc_c (t : Word) (s : State) : (setPc t s).c = s.c := rfl
@[simp] theorem setPc_d (t : Word) (s : State) : (setPc t s).d = s.d := rfl
@[simp] theorem setPc_e (t : Word) (s : State) : (setPc t s).e = s.e := rfl
@[simp] theorem setPc_h (t : Word) (s : State) : (setPc t s).h = s.h := rfl
@[simp] theorem setPc_l (t : Word) (s : State) : (setPc t s).l = s.l := rfl
@[simp] theorem setPc_f (t : Word) (s : State) : (setPc t s).f = s.f := rfl
@[simp] theorem setPc_sp (t : Word) (s : State) : (setPc t s).sp = s.sp := rfl
@[simp] theorem setPc_pc (t : Word) (s : State) : (setPc t s).pc = t := rfl
@[simp] theorem setPc_mem (t : Word) (s : State) : (setPc t s).mem = s.mem := rfl
@[simp] theorem setPc_status (t : Word) (s : State) : (setPc t s).status = s.status := rfl

@[simp] theorem setFlags_a (f : Flags) (s : State) : (setFlags f s).a = s.a := rfl
@[simp] theorem setFlags_b (f : Flags) (s : State) : (setFlags f s).b = s.b := rfl
@[simp] theorem setFlags_c (f : Flags) (s : State) : (setFlags f s).c = s.c := rfl
@[simp] theorem setFlags_d (f : Flags) (s : State) : (setFlags f s).d = s.d := rfl
@[simp] theorem setFlags_e (f : Flags) (s : State) : (setFlags f s).e = s.e := rfl
@[simp] theorem setFlags_h (f : Flags) (s : State) : (setFlags f s).h = s.h := rfl
@[simp] theorem setFlags_l (f : Flags) (s : State) : (setFlags f s).l = s.l := rfl
@[simp] theorem setFlags_f (f : Flags) (s : State) : (setFlags f s).f = f := rfl
@[simp] theorem setFlags_sp (f : Flags) (s : State) : (setFlags f s).sp = s.sp := rfl
@[simp] theorem setFlags_pc (f : Flags) (s : State) : (setFlags f s).pc = s.pc := rfl
@[simp] theorem setFlags_mem (f : Flags) (s : State) : (setFlags f s).mem = s.mem := rfl
@[simp] theorem setFlags_status (f : Flags) (s : State) : (setFlags f s).status = s.status := rfl

@[simp] theorem setBc_a (v : Word) (s : State) : (setBc v s).a = s.a := rfl
@[simp] theorem setBc_b (v : Word) (s : State) : (setBc v s).b = hiByte v := rfl
@[simp] theorem setBc_c (v : Word) (s : State) : (setBc v s).c = loByte v := rfl
@[simp] theorem setBc_d (v : Word) (s : State) : (setBc v s).d = s.d := rfl
@[simp] theorem setBc_e (v : Word) (s : State) : (setBc v s).e = s.e := rfl
@[simp] theorem setBc_h (v : Word) (s : State) : (setBc v s).h = s.h := rfl
@[simp] theorem setBc_l (v : Word) (s : State) : (setBc v s).l = s.l := rfl
@[simp] theorem setBc_f (v : Word) (s : State) : (setBc v s).f = s.f := rfl
@[simp] theorem setBc_sp (v : Word) (s : State) : (setBc v s).sp = s.sp := rfl
@[simp] theorem setBc_pc (v : Word) (s : State) : (setBc v s).pc = s.pc := rfl
@[simp] theorem setBc_mem (v : Word) (s : State) : (setBc v s).mem = s.mem := rfl
@[simp] theorem setBc_status (v : Word) (s : State) : (setBc v s).status = s.status := rfl

@[simp] theorem setDe_a (v : Word) (s : State) : (setDe v s).a = s.a := rfl
@[simp] theorem setDe_b (v : Word) (s : State) : (setDe v s).b = s.b := rfl
@[simp] theorem setDe_c (v : Word) (s : State) : (setDe v s).c = s.c := rfl
@[simp] theorem setDe_d (v : Word) (s : State) : (setDe v s).d = hiByte v := rfl
@[simp] theorem setDe_e (v : Word) (s : State) : (setDe v s).e = loByte v := rfl
@[simp] theorem setDe_h (v : Word) (s : State) : (setDe v s).h = s.h := rfl
@[simp] theorem setDe_l (v : Word) (s : State) : (setDe v s).l = s.l := rfl
@[simp] theorem setDe_f (v : Word) (s : State) : (setDe v s).f = s.f := rfl
@[simp] theorem setDe_sp (v : Word) (s : State) : (setDe v s).sp = s.sp := rfl
@[simp] theorem setDe_pc (v : Word) (s : State) : (setDe v s).pc = s.pc := rfl
@[simp] theorem setDe_mem (v : Word) (s : State) : (setDe v s).mem = s.mem := rfl
@[simp] theorem setDe_status (v : Word) (s : State) : (setDe v s).status = s.status := rfl

@[simp] theorem setHl_a (v : Word) (s : State) : (setHl v s).a = s.a := rfl
@[simp] theorem setHl_b (v : Word) (s : State) : (setHl v s).b = s.b := rfl
@[simp] theorem setHl_c (v : Word) (s : State) : (setHl v s).c = s.c := rfl
@[simp] theorem setHl_d (v : Word) (s : State) : (setHl v s).d = s.d := rfl
@[simp] theorem setHl_e (v : Word) (s : State) : (setHl v s).e = s.e := rfl
@[simp] theorem setHl_h (v : Word) (s : State) : (setHl v s).h = hiByte v := rfl
@[simp] theorem setHl_l (v : Word) (s : State) : (setHl v s).l = loByte v := rfl
@[simp] theorem setHl_f (v : Word) (s : State) : (setHl v s).f = s.f := rfl
@[simp] theorem setHl_sp (v : Word) (s : State) : (setHl v s).sp = s.sp := rfl
@[simp] theorem setHl_pc (v : Word) (s : State) : (setHl v s).pc = s.pc := rfl
@[simp] theorem setHl_mem (v : Word) (s : State) : (setHl v s).mem = s.mem := rfl
@[simp] theorem setHl_status (v : Word) (s : State) : (setHl v s).status = s.status := rfl

@[simp] theorem setAf_a (v : Word) (s : State) : (setAf v s).a = hiByte v := rfl
@[simp] theorem setAf_b (v : Word) (s : State) : (setAf v s).b = s.b := rfl
@[simp] theorem setAf_c (v : Word) (s : State) : (setAf v s).c = s.c := rfl
@[simp] theorem setAf_d (v : Word) (s : State) : (setAf v s).d = s.d := rfl
@[simp] theorem setAf_e (v : Word) (s : State) : (setAf v s).e = s.e := rfl
@[simp] theorem setAf_h (v : Word) (s : State) : (setAf v s).h = s.h := rfl
@[simp] theorem setAf_l (v : Word) (s : State) : (setAf v s).l = s.l := rfl
@[simp] theorem setAf_f (v : Word) (s : State) : (setAf v s).f = flagsFromByte (loByte v) := rfl
@[simp] theorem setAf_sp (v : Word) (s : State) : (setAf v s).sp = s.sp := rfl
@[simp] theorem setAf_pc (v : Word) (s : State) : (setAf v s).pc = s.pc := rfl
@[simp] theorem setAf_mem (v : Word) (s : State) : (setAf v s).mem = s.mem := rfl
@[simp] theorem setAf_status (v : Word) (s : State) : (setAf v s).status = s.status := rfl

@[simp] theorem takeFault_a (u : Unknown) (s : State) : (takeFault u s).a = s.a := rfl
@[simp] theorem takeFault_b (u : Unknown) (s : State) : (takeFault u s).b = s.b := rfl
@[simp] theorem takeFault_c (u : Unknown) (s : State) : (takeFault u s).c = s.c := rfl
@[simp] theorem takeFault_d (u : Unknown) (s : State) : (takeFault u s).d = s.d := rfl
@[simp] theorem takeFault_e (u : Unknown) (s : State) : (takeFault u s).e = s.e := rfl
@[simp] theorem takeFault_h (u : Unknown) (s : State) : (takeFault u s).h = s.h := rfl
@[simp] theorem takeFault_l (u : Unknown) (s : State) : (takeFault u s).l = s.l := rfl
@[simp] theorem takeFault_f (u : Unknown) (s : State) : (takeFault u s).f = s.f := rfl
@[simp] theorem takeFault_sp (u : Unknown) (s : State) : (takeFault u s).sp = s.sp := rfl
@[simp] theorem takeFault_pc (u : Unknown) (s : State) : (takeFault u s).pc = s.pc := rfl
@[simp] theorem takeFault_mem (u : Unknown) (s : State) : (takeFault u s).mem = s.mem := rfl
@[simp] theorem takeFault_status (u : Unknown) (s : State) : (takeFault u s).status = .fault u.prefixed u.op := rfl

theorem writeReg_a (r : Reg8) (v : Byte) (s : State) : (writeReg r v s).a = if r = .a then v else s.a := by cases r <;> rfl
theorem writeReg_b (r : Reg8) (v : Byte) (s : State) : (writeReg r v s).b = if r = .b then v else s.b := by cases r <;> rfl
theorem writeReg_c (r : Reg8) (v : Byte) (s : State) : (writeReg r v s).c = if r = .c then v else s.c := by cases r <;> rfl
theorem writeReg_d (r : Reg8) (v : Byte) (s : State) : (writeReg r v s).d = if r = .d then v else s.d := by cases r <;> rfl
theorem writeReg_e (r : Reg8) (v : Byte) (s : State) : (writeReg r v s).e = if r = .e then v else s.e := by cases r <;> rfl
theorem writeReg_h (r : Reg8) (v : Byte) (s : State) : (writeReg r v s).h = if r = .h then v else s.h := by cases r <;> rfl
theorem writeReg_l (r : Reg8) (v : Byte) (s : State) : (writeReg r v s).l = if r = .l then v else s.l := by cases r <;> rfl
@[simp] theorem writeReg_f (r : Reg8) (v : Byte) (s : State) : (writeReg r v s).f = s.f := by cases r <;> rfl
@[simp] theorem writeReg_sp (r : Reg8) (v : Byte) (s : State) : (writeReg r v s).sp = s.sp := by cases r <;> rfl
@[simp] theorem writeReg_pc (r : Reg8) (v : Byte) (s : State) : (writeReg r v s).pc = s.pc := by cases r <;> rfl
@[simp] theorem writeReg_mem (r : Reg8) (v : Byte) (s : State) : (writeReg r v s).mem = s.mem := by cases r <;> rfl
@[simp] theorem writeReg_status (r : Reg8) (v : Byte) (s : State) : (writeReg r v s).status = s.status := by cases r <;> rfl

@[simp] theorem readReg_writeReg_same (r : Reg8) (v : Byte) (s : State) : readReg r (writeReg r v s) = v := by cases r <;> rfl

theorem readReg_writeReg_ne {r q : Reg8} (h : q ≠ r) (v : Byte) (s : State) :
    readReg q (writeReg r v s) = readReg q s := by
  cases r <;> cases q <;> first | rfl | exact absurd rfl h

theorem readReg_writeReg (r q : Reg8) (v : Byte) (s : State) :
    readReg q (writeReg r v s) = if q = r then v else readReg q s := by
  split
  · next h => rw [h, readReg_writeReg_same]
  · next h => exact readReg_writeReg_ne h v s

@[simp] theorem readReg_setPc (r : Reg8) (t : Word) (s : State) : readReg r (setPc t s) = readReg r s := by cases r <;> rfl
@[simp] theorem readReg_setFlags (r : Reg8) (f : Flags) (s : State) : readReg r (setFlags f s) = readReg r s := by cases r <;> rfl
@[simp] theorem readReg_takeFault (r : Reg8) (u : Unknown) (s : State) : readReg r (takeFault u s) = readReg r s := by cases r <;> rfl
@[simp] theorem getBc_setPc (t : Word) (s : State) : getBc (setPc t s) = getBc s := rfl
@[simp] theorem getBc_setFlags (f : Flags) (s : State) : getBc (setFlags f s) = getBc s := rfl
@[simp] theorem getBc_takeFault (u : Unknown) (s : State) : getBc (takeFault u s) = getBc s := rfl
@[simp] theorem getDe_setPc (t : Word) (s : State) : getDe (setPc t s) = getDe s := rfl
@[simp] theorem getDe_setFlags (f : Flags) (s : State) : getDe (setFlags f s) = getDe s := rfl
@[simp] theorem getDe_takeFault (u : Unknown) (s : State) : getDe (takeFault u s) = getDe s := rfl
@[simp] theorem getHl_setPc (t : Word) (s : State) : getHl (setPc t s) = getHl s := rfl
@[simp] theorem getHl_setFlags (f : Flags) (s : State) : getHl (setFlags f s) = getHl s := rfl
@[simp] theorem getHl_takeFault (u : Unknown) (s : State) : getHl (takeFault u s) = getHl s := rfl

/-! ## Operand writes (20_memory.md R58, R62) -/

@[simp] theorem writeByte_reg (r : Reg8) (v : Byte) (s : State) : writeByte (.reg r) v s = writeReg r v s := rfl
@[simp] theorem writeByte_memHl (v : Byte) (s : State) :
    writeByte .memHl v s = { s with mem := memWrite s.mem (getHl s) v } := rfl
@[simp] theorem writeByte_imm (d v : Byte) (s : State) : writeByte (.imm d) v s = s := rfl

@[simp] theorem writeByte_f (t : ByteTarget) (v : Byte) (s : State) : (writeByte t v s).f = s.f := by cases t <;> simp
@[simp] theorem writeByte_sp (t : ByteTarget) (v : Byte) (s : State) : (writeByte t v s).sp = s.sp := by cases t <;> simp
@[simp] theorem writeByte_pc (t : ByteTarget) (v : Byte) (s : State) : (writeByte t v s).pc = s.pc := by cases t <;> simp
@[simp] theorem writeByte_status (t : ByteTarget) (v : Byte) (s : State) : (writeByte t v s).status = s.status := by cases t <;> simp
@[simp] theorem writeWord_f (t : WordTarget) (v : Word) (s : State) : (writeWord t v s).f = s.f := by cases t <;> rfl
@[simp] theorem writeWord_pc (t : WordTarget) (v : Word) (s : State) : (writeWord t v s).pc = s.pc := by cases t <;> rfl
@[simp] theorem writeWord_mem (t : WordTarget) (v : Word) (s : State) : (writeWord t v s).mem = s.mem := by cases t <;> rfl
@[simp] theorem writeWord_status (t : WordTarget) (v : Word) (s : State) : (writeWord t v s).status = s.status := by cases t <;> rfl

end Sys2Proof.Machine
end

