-- ==== Sys2Proof/Laws/Operands.lean ====
section
/-! SUPPORT. One lemma per shared operation of the meanings, saying once everything it does. -/

namespace Sys2Proof.Machine

/-! ## 16-bit views -/

@[simp] theorem hiByte_wordOfBytes (hi lo : Byte) : hiByte (wordOfBytes hi lo) = hi := by
  simp only [hiByte, wordOfBytes]
  apply BitVec.eq_of_getLsbD_eq
  intro i h
  rw [BitVec.getLsbD_extractLsb', BitVec.getLsbD_append]
  simp [h]

@[simp] theorem loByte_wordOfBytes (hi lo : Byte) : loByte (wordOfBytes hi lo) = lo := by
  simp only [loByte, wordOfBytes]
  apply BitVec.eq_of_getLsbD_eq
  intro i h
  rw [BitVec.getLsbD_extractLsb', BitVec.getLsbD_append]
  simp [h]

@[simp] theorem wordOfBytes_hi_lo (v : Word) : wordOfBytes (hiByte v) (loByte v) = v := by
  simp only [hiByte, loByte, wordOfBytes]
  apply BitVec.eq_of_getLsbD_eq
  intro i h
  rw [BitVec.getLsbD_append]
  split
  · next h8 => simp [h8]
  · next h8 =>
    have e : 8 + (i - 8) = i := by omega
    have : i - 8 < 8 := by omega
    simp [e, this]

theorem wordOfBytes_toNat (hi lo : Byte) : (wordOfBytes hi lo).toNat = hi.toNat * 256 + lo.toNat := by
  have h : lo.toNat < 2 ^ 8 := lo.isLt
  rw [wordOfBytes, BitVec.toNat_append, Nat.shiftLeft_eq, ← Nat.mul_comm, ← Nat.two_pow_add_eq_or_of_lt h]

@[simp] theorem resolveByte_reg (r : Reg8) (s : State) : resolveByte (.reg r) s = (readReg r s, 1) := rfl
@[simp] theorem resolveByte_memHl (s : State) : resolveByte .memHl s = (memRead s.mem (getHl s), 1) := rfl
@[simp] theorem resolveByte_imm (d : Byte) (s : State) : resolveByte (.imm d) s = (d, 2) := rfl

/-! ## The shared operations of the families -/

/-- An ALU operation on A writes A, F and pc and nothing else. -/
theorem aluOnA_eq (op : Byte → Byte → Flags → Byte × Flags) (t : ByteTarget) (s : State) :
    aluOnA op t s =
      { s with
        a := (op s.a (resolveByte t s).1 s.f).1
        f := (op s.a (resolveByte t s).1 s.f).2
        pc := s.pc + BitVec.ofNat 16 (resolveByte t s).2 } := rfl

/-- A compare writes F and pc and nothing else. -/
theorem compareOnA_eq (t : ByteTarget) (s : State) :
    compareOnA t s =
      { s with
        f := (aluSub s.a (resolveByte t s).1 s.f).2
        pc := s.pc + BitVec.ofNat 16 (resolveByte t s).2 } := rfl

/-- A read-modify-write writes its target once, F and pc and nothing else. -/
theorem modifyByte_eq (op : Byte → Flags → Byte × Flags) (t : ByteTarget) (n : Nat) (s : State) :
    modifyByte op t n s =
      { writeByte t (op (resolveByte t s).1 s.f).1 s with
        f := (op (resolveByte t s).1 s.f).2
        pc := s.pc + BitVec.ofNat 16 n } := rfl

/-- A bit test writes F and pc and nothing else. -/
theorem testBit_eq (b : Byte) (t : ByteTarget) (s : State) :
    testBit b t s = { s with f := aluBitCheck (resolveByte t s).1 b s.f, pc := s.pc + 2 } := rfl

/-- A bit change writes its target once and pc and nothing else. -/
theorem changeBit_eq (op : Byte → Byte → Byte) (b : Byte) (t : ByteTarget) (s : State) :
    changeBit op b t s = { writeByte t (op (resolveByte t s).1 b) s with pc := s.pc + 2 } := rfl

/-! ## The canonical form of memory under the shared operations -/

theorem aluOnA_mem (op : Byte → Byte → Flags → Byte × Flags) (t : ByteTarget) (s : State) :
    (aluOnA op t s).mem = s.mem := rfl

theorem modifyByte_mem_wf {s : State} (h : s.mem.wf = true) (op : Byte → Flags → Byte × Flags) (t : ByteTarget) (n : Nat) :
    (modifyByte op t n s).mem.wf = true := writeByte_mem_wf h t _

theorem changeBit_mem_wf {s : State} (h : s.mem.wf = true) (op : Byte → Byte → Byte) (b : Byte) (t : ByteTarget) :
    (changeBit op b t s).mem.wf = true := writeByte_mem_wf h t _

end Sys2Proof.Machine
end

