-- ==== Sys2Proof/Laws/Step.lean ====
section
/-! SUPPORT. What a step can do, said once. -/

namespace Sys2Proof.Machine

/-- The three things a step can do (30_encoding.md R80): stay faulted, run the decoded instruction, or take the fault. -/
theorem stepWith_cases {admitted : Bool → Byte → Bool} {s : State} {o : Host.Outcome State Fault Refusal}
    (h : stepWith admitted s = o) :
    ((∃ prefixed op, s.status = .fault prefixed op) ∧ o = .next s) ∨
    (s.status = .running ∧ ∃ i, fetchDecode admitted s = .ok i ∧ o = exec i s) ∨
    (s.status = .running ∧ ∃ u, fetchDecode admitted s = .error u ∧ o = .next (takeFault u s)) := by
  unfold stepWith at h
  split at h
  · next p op hs => exact .inl ⟨⟨p, op, hs⟩, h.symm⟩
  · next hs =>
    split at h
    · next i hi => exact .inr (.inl ⟨hs, i, hi, h.symm⟩)
    · next u hu => exact .inr (.inr ⟨hs, u, hu, h.symm⟩)

end Sys2Proof.Machine
end

