-- ==== Sys2Proof/Tests/Slice0.lean ====
section
/-! SUPPORT. Tests: words written out from the encodings of 30_encoding.md, single steps whose results are the vectors of
95_test_vectors.md section 2, and for each obligation with hypotheses a state and operands that meet them. -/

namespace Sys2Proof.Tests

open Sys2Proof.Machine Sys2Proof.Safety Sys2Proof.Claims

/-! ## The smoke test of WellFormed: each check refuses an ill-formed term -/

theorem test_wf_bitBR : (Instr.bitBR 8 .a).wellFormed = false := by decide
theorem test_wf_bitBMem : (Instr.bitBMem 8).wellFormed = false := by decide
theorem test_wf_resBR : (Instr.resBR 0xFF .b).wellFormed = false := by decide
theorem test_wf_resBMem : (Instr.resBMem 0x80).wellFormed = false := by decide
theorem test_wf_setBR : (Instr.setBR 9 .l).wellFormed = false := by decide
theorem test_wf_setBMem : (Instr.setBMem 8).wellFormed = false := by decide
theorem test_wf_jpCcA16 : (Instr.jpCcA16 .always 0x1234).wellFormed = false := by decide
theorem test_wf_jrCcE8 : (Instr.jrCcE8 .always 0xFE).wellFormed = false := by decide
theorem test_wf_accepts : (Instr.bitBR 7 .a).wellFormed = true ∧ (Instr.jrCcE8 .carry 0xFE).wellFormed = true := by decide

/-! ## Decoding: words written bit by bit from the patterns of R87 and R93 and the codes of R88

An operand byte is 0x00 where the instruction has none. -/

/-- The decoder reads this instruction from these bytes. -/
def reads (b0 b1 b2 : Byte) (i : Instr) : Bool := decide ((decode b0 b1 b2).toOption = some i)

/-- `10 000 rrr`, `10 000 110`, `11 000 110`. -/
theorem test_decode_add :
    reads 0b10000000 0x00 0x00 (.addAR .b) = true ∧
    reads 0b10000110 0x00 0x00 .addAMem = true ∧
    reads 0b11000110 0x5A 0x00 (.addAD8 0x5A) = true := by decide

/-- `10 001 rrr`, `10 001 110`, `11 001 110`. -/
theorem test_decode_adc :
    reads 0b10001001 0x00 0x00 (.adcAR .c) = true ∧
    reads 0b10001110 0x00 0x00 .adcAMem = true ∧
    reads 0b11001110 0x5A 0x00 (.adcAD8 0x5A) = true := by decide

/-- `10 010 rrr`, `10 010 110`, `11 010 110`. -/
theorem test_decode_sub :
    reads 0b10010010 0x00 0x00 (.subAR .d) = true ∧
    reads 0b10010110 0x00 0x00 .subAMem = true ∧
    reads 0b11010110 0x5A 0x00 (.subAD8 0x5A) = true := by decide

/-- `10 011 rrr`, `10 011 110`, `11 011 110`. -/
theorem test_decode_sbc :
    reads 0b10011011 0x00 0x00 (.sbcAR .e) = true ∧
    reads 0b10011110 0x00 0x00 .sbcAMem = true ∧
    reads 0b11011110 0x5A 0x00 (.sbcAD8 0x5A) = true := by decide

/-- `10 100 rrr`, `10 100 110`, `11 100 110`. -/
theorem test_decode_and :
    reads 0b10100100 0x00 0x00 (.andAR .h) = true ∧
    reads 0b10100110 0x00 0x00 .andAMem = true ∧
    reads 0b11100110 0x5A 0x00 (.andAD8 0x5A) = true := by decide

/-- `10 101 rrr`, `10 101 110`, `11 101 110`. -/
theorem test_decode_xor :
    reads 0b10101101 0x00 0x00 (.xorAR .l) = true ∧
    reads 0b10101110 0x00 0x00 .xorAMem = true ∧
    reads 0b11101110 0x5A 0x00 (.xorAD8 0x5A) = true := by decide

/-- `10 110 rrr`, `10 110 110`, `11 110 110`. -/
theorem test_decode_or :
    reads 0b10110111 0x00 0x00 (.orAR .a) = true ∧
    reads 0b10110110 0x00 0x00 .orAMem = true ∧
    reads 0b11110110 0x5A 0x00 (.orAD8 0x5A) = true := by decide

/-- `10 111 rrr`, `10 111 110`, `11 111 110`. -/
theorem test_decode_cp :
    reads 0b10111000 0x00 0x00 (.cpAR .b) = true ∧
    reads 0b10111110 0x00 0x00 .cpAMem = true ∧
    reads 0b11111110 0x5A 0x00 (.cpAD8 0x5A) = true := by decide

/-- `00 rrr 100` and `00 rrr 101`. -/
theorem test_decode_inc_dec :
    reads 0b00001100 0x00 0x00 (.incR .c) = true ∧
    reads 0b00110100 0x00 0x00 .incMem = true ∧
    reads 0b00010101 0x00 0x00 (.decR .d) = true ∧
    reads 0b00110101 0x00 0x00 .decMem = true := by decide

/-- 0x2F, 0x3F, 0x37. -/
theorem test_decode_flag_forms :
    reads 0b00101111 0x00 0x00 .cpl = true ∧
    reads 0b00111111 0x00 0x00 .ccf = true ∧
    reads 0b00110111 0x00 0x00 .scf = true := by decide

/-- `00 pp 1001`, 0xE8, `00 pp 0011`, `00 pp 1011`. -/
theorem test_decode_alu16 :
    reads 0b00011001 0x00 0x00 (.addHlRr .de) = true ∧
    reads 0b11101000 0x80 0x00 (.addSpE8 0x80) = true ∧
    reads 0b00110011 0x00 0x00 (.incRr .sp) = true ∧
    reads 0b00001011 0x00 0x00 (.decRr .bc) = true := by decide

/-- `000 oo 111`. -/
theorem test_decode_rotate_a :
    reads 0b00000111 0x00 0x00 .rlca = true ∧
    reads 0b00001111 0x00 0x00 .rrca = true ∧
    reads 0b00010111 0x00 0x00 .rla = true ∧
    reads 0b00011111 0x00 0x00 .rra = true := by decide

/-- 0xCB, then `00 ooo rrr`: groups 0 to 3. -/
theorem test_decode_rotates :
    reads 0b11001011 0b00000000 0x00 (.rlcR .b) = true ∧
    reads 0b11001011 0b00000110 0x00 .rlcMem = true ∧
    reads 0b11001011 0b00001001 0x00 (.rrcR .c) = true ∧
    reads 0b11001011 0b00001110 0x00 .rrcMem = true ∧
    reads 0b11001011 0b00010010 0x00 (.rlR .d) = true ∧
    reads 0b11001011 0b00010110 0x00 .rlMem = true ∧
    reads 0b11001011 0b00011011 0x00 (.rrR .e) = true ∧
    reads 0b11001011 0b00011110 0x00 .rrMem = true := by decide

/-- 0xCB, then `00 ooo rrr`: groups 4 to 7. -/
theorem test_decode_shifts :
    reads 0b11001011 0b00100100 0x00 (.slaR .h) = true ∧
    reads 0b11001011 0b00100110 0x00 .slaMem = true ∧
    reads 0b11001011 0b00101101 0x00 (.sraR .l) = true ∧
    reads 0b11001011 0b00101110 0x00 .sraMem = true ∧
    reads 0b11001011 0b00110111 0x00 (.swapR .a) = true ∧
    reads 0b11001011 0b00110110 0x00 .swapMem = true ∧
    reads 0b11001011 0b00111000 0x00 (.srlR .b) = true ∧
    reads 0b11001011 0b00111110 0x00 .srlMem = true := by decide

/-- 0xCB, then `01 bbb rrr`, `10 bbb rrr`, `11 bbb rrr`. -/
theorem test_decode_bit_ops :
    reads 0b11001011 0b01111100 0x00 (.bitBR 7 .h) = true ∧
    reads 0b11001011 0b01000110 0x00 (.bitBMem 0) = true ∧
    reads 0b11001011 0b10011111 0x00 (.resBR 3 .a) = true ∧
    reads 0b11001011 0b10101110 0x00 (.resBMem 5) = true ∧
    reads 0b11001011 0b11110001 0x00 (.setBR 6 .c) = true ∧
    reads 0b11001011 0b11100110 0x00 (.setBMem 4) = true := by decide

/-- 0xC3, `110 cc 010`, 0x18, `001 cc 000`, 0xE9; a16 low byte first (R90). -/
theorem test_decode_jumps :
    reads 0b11000011 0x99 0xBA (.jpA16 0xBA99) = true ∧
    reads 0b11000010 0x00 0x30 (.jpCcA16 .notZero 0x3000) = true ∧
    reads 0b11011010 0x34 0x12 (.jpCcA16 .carry 0x1234) = true ∧
    reads 0b00011000 0xF8 0x00 (.jrE8 0xF8) = true ∧
    reads 0b00101000 0x10 0x00 (.jrCcE8 .zero 0x10) = true ∧
    reads 0b00110000 0x80 0x00 (.jrCcE8 .notCarry 0x80) = true ∧
    reads 0b11101001 0x00 0x00 .jpHl = true := by decide

/-- Words in the numbering of spec/opcode_table.json: the match values of the rows of R160, R162, R224 and R273. -/
theorem test_decodeTableWord :
    decodeTableWord 8 0x80 = some (.addAR .b) ∧ decodeTableWord 8 0xC6 = some (.addAD8 0x00) ∧
    decodeTableWord 16 0xCB00 = some (.rlcR .b) ∧ decodeTableWord 8 0xC3 = some (.jpA16 0x0000) ∧
    decodeTableWord 8 0x00 = none := by decide

/-- A byte with no row is rejected by name (R92). -/
theorem test_decode_unknown : decode 0x76 0x00 0x00 = .error ⟨false, 0x76⟩ := rfl

/-- The encoder writes the same words. -/
theorem test_encode :
    encode (.setBMem 4) = [0b11001011, 0b11100110] ∧ encode (.jpCcA16 .carry 0x1234) = [0b11011010, 0x34, 0x12] ∧
    encode (.decRr .hl) = [0b00101011] ∧ encode (.bitBR 8 .a) = [] := by decide

/-- `withFetchWord` places an instruction that the next step runs: `SWAP A` after reset. -/
theorem test_withFetchWord :
    step (State.reset.withFetchWord 16 0xCB37) = exec (.swapR .a) (State.reset.withFetchWord 16 0xCB37) := rfl

/-! ## Single steps: the vectors of 95_test_vectors.md section 2

Every register not named is 0x00 and every memory byte not named is 0x00, as that section's conventions say. -/

/-- Every register zero, every flag clear, the core running. -/
def zeroed : State := State.resetWith 0x0000 []

/-- The state with pc at `pc`, the instruction's bytes there, and the named memory bytes. -/
def before (pc : Word) (bytes : List Byte) (named : List (Word × Byte)) (s : State) : State :=
  { s with pc := pc, mem := named.foldl (fun m cell => memWrite m cell.1 cell.2) (memWriteBytes [] pc bytes) }

/-- One step takes `s` to exactly the state that `after` gives from `s`. -/
def stepsTo (s : State) (after : State → State) : Bool :=
  match step s with
  | .next t => decide (t = after s)
  | .fault _ => false
  | .refused _ => false

/-- `ADD A,B`, R160: H from bit 3, C from bit 7. -/
theorem test_addAR : stepsTo (before 0x0100 [0x80] [] { zeroed with a := 0x3A, b := 0xC6 })
    (fun s => { s with a := 0x00, f := ⟨false, false, true, true⟩, pc := 0x0101 }) = true := by decide

/-- `ADD A,B`, R160: 0x80+0x80 wraps to 0, Z=0 (no-overflow rule). -/
theorem test_addAR_2 : stepsTo (before 0x0100 [0x80] [] { zeroed with a := 0x80, b := 0x80 })
    (fun s => { s with a := 0x00, f := ⟨false, false, false, true⟩, pc := 0x0101 }) = true := by decide

/-- `ADD A,(HL)`, R161. -/
theorem test_addAMem : stepsTo (before 0x0100 [0x86] [(0xC000, 0x01)] { zeroed with a := 0x0F, h := 0xC0, l := 0x00 })
    (fun s => { s with a := 0x10, f := ⟨false, false, true, false⟩, pc := 0x0101 }) = true := by decide

/-- `ADD A,d8`, R162: pc+2. -/
theorem test_addAD8 : stepsTo (before 0x0100 [0xC6, 0xFF] [] { zeroed with a := 0x01 })
    (fun s => { s with a := 0x00, f := ⟨false, false, true, true⟩, pc := 0x0102 }) = true := by decide

/-- `ADD A,d8`, R162: immediate at 0x0000 after wrap (D5). -/
theorem test_addAD8_2 : stepsTo (before 0xFFFF [0xC6, 0x01] [] { zeroed with a := 0x10 })
    (fun s => { s with a := 0x11, f := ⟨false, false, false, false⟩, pc := 0x0001 }) = true := by decide

/-- `ADC A,B`, R163: §8 scenario as an instruction: 0xFF+0x01 -> 0x01. -/
theorem test_adcAR : stepsTo (before 0x0100 [0x88] [] { zeroed with a := 0xFF, b := 0x01 })
    (fun s => { s with a := 0x01, f := ⟨false, false, true, true⟩, pc := 0x0101 }) = true := by decide

/-- `ADC A,B`, R163: incoming C ignored (no +1). -/
theorem test_adcAR_2 : stepsTo (before 0x0100 [0x88] [] { zeroed with a := 0x10, b := 0x20, f := ⟨false, false, false, true⟩ })
    (fun s => { s with a := 0x30, f := ⟨false, false, false, false⟩, pc := 0x0101 }) = true := by decide

/-- `ADC A,(HL)`, R164. -/
theorem test_adcAMem : stepsTo (before 0x0100 [0x8E] [(0xC000, 0x0F)] { zeroed with a := 0xE1, h := 0xC0, l := 0x00, f := ⟨false, false, false, true⟩ })
    (fun s => { s with a := 0xF0, f := ⟨false, false, true, false⟩, pc := 0x0101 }) = true := by decide

/-- `ADC A,d8`, R165: 0x80+0x80 -> 0x00+1 = 0x01, Z=0. -/
theorem test_adcAD8 : stepsTo (before 0x0100 [0xCE, 0x80] [] { zeroed with a := 0x80 })
    (fun s => { s with a := 0x01, f := ⟨false, false, false, true⟩, pc := 0x0102 }) = true := by decide

/-- `SUB A,B`, R166: equal operands, Z=1. -/
theorem test_subAR : stepsTo (before 0x0100 [0x90] [] { zeroed with a := 0x3E, b := 0x3E })
    (fun s => { s with a := 0x00, f := ⟨true, true, false, false⟩, pc := 0x0101 }) = true := by decide

/-- `SUB A,B`, R166: borrow, C=1. -/
theorem test_subAR_2 : stepsTo (before 0x0100 [0x90] [] { zeroed with a := 0x01, b := 0x02 })
    (fun s => { s with a := 0xFF, f := ⟨false, true, true, true⟩, pc := 0x0101 }) = true := by decide

/-- `SUB A,(HL)`, R167. -/
theorem test_subAMem : stepsTo (before 0x0100 [0x96] [(0xC000, 0x01)] { zeroed with a := 0x10, h := 0xC0, l := 0x00 })
    (fun s => { s with a := 0x0F, f := ⟨false, true, true, false⟩, pc := 0x0101 }) = true := by decide

/-- `SUB A,d8`, R168. -/
theorem test_subAD8 : stepsTo (before 0x0100 [0xD6, 0xFF] [] { zeroed with a := 0x00 })
    (fun s => { s with a := 0x01, f := ⟨false, true, true, true⟩, pc := 0x0102 }) = true := by decide

/-- `SBC A,B`, R169: incoming C ignored. -/
theorem test_sbcAR : stepsTo (before 0x0100 [0x98] [] { zeroed with a := 0x10, b := 0x01, f := ⟨false, false, false, true⟩ })
    (fun s => { s with a := 0x0F, f := ⟨false, true, true, false⟩, pc := 0x0101 }) = true := by decide

/-- `SBC A,B`, R169: 0x00-0xFF -> 0x01-1 = 0x00 with Z=0. -/
theorem test_sbcAR_2 : stepsTo (before 0x0100 [0x98] [] { zeroed with a := 0x00, b := 0xFF })
    (fun s => { s with a := 0x00, f := ⟨false, true, true, true⟩, pc := 0x0101 }) = true := by decide

/-- `SBC A,(HL)`, R170. -/
theorem test_sbcAMem : stepsTo (before 0x0100 [0x9E] [(0xC000, 0x20)] { zeroed with a := 0x20, h := 0xC0, l := 0x00, f := ⟨false, false, false, true⟩ })
    (fun s => { s with a := 0x00, f := ⟨true, true, false, false⟩, pc := 0x0101 }) = true := by decide

/-- `SBC A,d8`, R171: 0x00-0x01 -> 0xFF-1 = 0xFE. -/
theorem test_sbcAD8 : stepsTo (before 0x0100 [0xDE, 0x01] [] { zeroed with a := 0x00 })
    (fun s => { s with a := 0xFE, f := ⟨false, true, true, true⟩, pc := 0x0102 }) = true := by decide

/-- `AND A,B`, R172: H=1, C=0. -/
theorem test_andAR : stepsTo (before 0x0100 [0xA0] [] { zeroed with a := 0xF0, b := 0x3C, f := ⟨false, false, false, true⟩ })
    (fun s => { s with a := 0x30, f := ⟨false, false, true, false⟩, pc := 0x0101 }) = true := by decide

/-- `AND A,B`, R172: zero result. -/
theorem test_andAR_2 : stepsTo (before 0x0100 [0xA0] [] { zeroed with a := 0xF0, b := 0x0F })
    (fun s => { s with a := 0x00, f := ⟨true, false, true, false⟩, pc := 0x0101 }) = true := by decide

/-- `AND A,(HL)`, R173. -/
theorem test_andAMem : stepsTo (before 0x0100 [0xA6] [(0xC000, 0x81)] { zeroed with a := 0xFF, h := 0xC0, l := 0x00 })
    (fun s => { s with a := 0x81, f := ⟨false, false, true, false⟩, pc := 0x0101 }) = true := by decide

/-- `AND A,d8`, R174. -/
theorem test_andAD8 : stepsTo (before 0x0100 [0xE6, 0x00] [] { zeroed with a := 0xFF })
    (fun s => { s with a := 0x00, f := ⟨true, false, true, false⟩, pc := 0x0102 }) = true := by decide

/-- `XOR A,A`, R175: clears A, Z=1. -/
theorem test_xorAR : stepsTo (before 0x0100 [0xAF] [] { zeroed with a := 0x5A, f := ⟨false, true, true, true⟩ })
    (fun s => { s with a := 0x00, f := ⟨true, false, false, false⟩, pc := 0x0101 }) = true := by decide

/-- `XOR A,B`, R175. -/
theorem test_xorAR_2 : stepsTo (before 0x0100 [0xA8] [] { zeroed with a := 0xF0, b := 0xFF })
    (fun s => { s with a := 0x0F, f := ⟨false, false, false, false⟩, pc := 0x0101 }) = true := by decide

/-- `XOR A,(HL)`, R176. -/
theorem test_xorAMem : stepsTo (before 0x0100 [0xAE] [(0xC000, 0x0F)] { zeroed with a := 0x0F, h := 0xC0, l := 0x00 })
    (fun s => { s with a := 0x00, f := ⟨true, false, false, false⟩, pc := 0x0101 }) = true := by decide

/-- `XOR A,d8`, R177. -/
theorem test_xorAD8 : stepsTo (before 0x0100 [0xEE, 0x80] [] { zeroed with a := 0x01 })
    (fun s => { s with a := 0x81, f := ⟨false, false, false, false⟩, pc := 0x0102 }) = true := by decide

/-- `OR A,B`, R178. -/
theorem test_orAR : stepsTo (before 0x0100 [0xB0] [] { zeroed with a := 0x00, b := 0x00, f := ⟨false, true, true, true⟩ })
    (fun s => { s with a := 0x00, f := ⟨true, false, false, false⟩, pc := 0x0101 }) = true := by decide

/-- `OR A,(HL)`, R179. -/
theorem test_orAMem : stepsTo (before 0x0100 [0xB6] [(0xC000, 0x80)] { zeroed with a := 0x01, h := 0xC0, l := 0x00 })
    (fun s => { s with a := 0x81, f := ⟨false, false, false, false⟩, pc := 0x0101 }) = true := by decide

/-- `OR A,d8`, R180. -/
theorem test_orAD8 : stepsTo (before 0x0100 [0xF6, 0x0F] [] { zeroed with a := 0xF0 })
    (fun s => { s with a := 0xFF, f := ⟨false, false, false, false⟩, pc := 0x0102 }) = true := by decide

/-- `CP A,B`, R181: A unchanged, equal. -/
theorem test_cpAR : stepsTo (before 0x0100 [0xB8] [] { zeroed with a := 0x42, b := 0x42 })
    (fun s => { s with a := 0x42, f := ⟨true, true, false, false⟩, pc := 0x0101 }) = true := by decide

/-- `CP A,B`, R181: A < v. -/
theorem test_cpAR_2 : stepsTo (before 0x0100 [0xB8] [] { zeroed with a := 0x10, b := 0x20 })
    (fun s => { s with a := 0x10, f := ⟨false, true, false, true⟩, pc := 0x0101 }) = true := by decide

/-- `CP A,(HL)`, R182. -/
theorem test_cpAMem : stepsTo (before 0x0100 [0xBE] [(0xC000, 0x01)] { zeroed with a := 0x10, h := 0xC0, l := 0x00 })
    (fun s => { s with a := 0x10, f := ⟨false, true, true, false⟩, pc := 0x0101 }) = true := by decide

/-- `CP A,d8`, R183. -/
theorem test_cpAD8 : stepsTo (before 0x0100 [0xFE, 0x3C] [] { zeroed with a := 0x3C, f := ⟨false, false, false, true⟩ })
    (fun s => { s with a := 0x3C, f := ⟨true, true, false, false⟩, pc := 0x0102 }) = true := by decide

/-- `INC A`, R184: H from nibble, C kept. -/
theorem test_incR : stepsTo (before 0x0100 [0x3C] [] { zeroed with a := 0x0F, f := ⟨false, false, false, true⟩ })
    (fun s => { s with a := 0x10, f := ⟨false, false, true, true⟩, pc := 0x0101 }) = true := by decide

/-- `INC L`, R184: only L changes. -/
theorem test_incR_2 : stepsTo (before 0x0100 [0x2C] [] { zeroed with h := 0x12, l := 0xFF })
    (fun s => { s with l := 0x00, f := ⟨true, false, true, false⟩, pc := 0x0101 }) = true := by decide

/-- `INC (HL)`, R185. -/
theorem test_incMem : stepsTo (before 0x0100 [0x34] [(0xC000, 0x7F)] { zeroed with h := 0xC0, l := 0x00 })
    (fun s => { s with f := ⟨false, false, true, false⟩, pc := 0x0101, mem := memWrite s.mem 0xC000 0x80 }) = true := by decide

/-- `DEC B`, R186: 1 -> 0. -/
theorem test_decR : stepsTo (before 0x0100 [0x05] [] { zeroed with b := 0x01, f := ⟨false, false, false, true⟩ })
    (fun s => { s with b := 0x00, f := ⟨true, true, false, true⟩, pc := 0x0101 }) = true := by decide

/-- `DEC C`, R186: 0 -> 0xFF, H=1. -/
theorem test_decR_2 : stepsTo (before 0x0100 [0x0D] [] { zeroed with c := 0x00 })
    (fun s => { s with c := 0xFF, f := ⟨false, true, true, false⟩, pc := 0x0101 }) = true := by decide

/-- `DEC (HL)`, R187. -/
theorem test_decMem : stepsTo (before 0x0100 [0x35] [(0xC000, 0x10)] { zeroed with h := 0xC0, l := 0x00 })
    (fun s => { s with f := ⟨false, true, true, false⟩, pc := 0x0101, mem := memWrite s.mem 0xC000 0x0F }) = true := by decide

/-- `CPL`, R188. -/
theorem test_cpl : stepsTo (before 0x0100 [0x2F] [] { zeroed with a := 0x35, f := ⟨false, false, false, true⟩ })
    (fun s => { s with a := 0xCA, f := ⟨false, true, true, true⟩, pc := 0x0101 }) = true := by decide

/-- `CPL`, R188: 0xFF -> 0x00 with Z=1. -/
theorem test_cpl_2 : stepsTo (before 0x0100 [0x2F] [] { zeroed with a := 0xFF })
    (fun s => { s with a := 0x00, f := ⟨true, true, true, false⟩, pc := 0x0101 }) = true := by decide

/-- `CCF`, R189: C inverted, Z kept. -/
theorem test_ccf : stepsTo (before 0x0100 [0x3F] [] { zeroed with f := ⟨true, true, true, true⟩ })
    (fun s => { s with f := ⟨true, false, false, false⟩, pc := 0x0101 }) = true := by decide

/-- `CCF`, R189. -/
theorem test_ccf_2 : stepsTo (before 0x0100 [0x3F] [] zeroed)
    (fun s => { s with f := ⟨false, false, false, true⟩, pc := 0x0101 }) = true := by decide

/-- `SCF`, R190. -/
theorem test_scf : stepsTo (before 0x0100 [0x37] [] { zeroed with f := ⟨true, true, true, false⟩ })
    (fun s => { s with f := ⟨true, false, false, true⟩, pc := 0x0101 }) = true := by decide

/-- `ADD HL,HL`, R200: 0x8000*2 -> 0, C=1, Z=0. -/
theorem test_addHlRr : stepsTo (before 0x0100 [0x29] [] { zeroed with h := 0x80, l := 0x00 })
    (fun s => { s with h := 0x00, f := ⟨false, false, false, true⟩, pc := 0x0101 }) = true := by decide

/-- `ADD HL,SP`, R200: 0xFFFF+1. -/
theorem test_addHlRr_2 : stepsTo (before 0x0100 [0x39] [] { zeroed with h := 0xFF, l := 0xFF, sp := 0x0001, f := ⟨true, false, false, false⟩ })
    (fun s => { s with h := 0x00, l := 0x00, f := ⟨false, false, true, true⟩, pc := 0x0101 }) = true := by decide

/-- `ADD SP,e8`, R201: -1 from 1 gives 0, Z cleared, C=1. -/
theorem test_addSpE8 : stepsTo (before 0x0100 [0xE8, 0xFF] [] { zeroed with sp := 0x0001, f := ⟨true, false, false, false⟩ })
    (fun s => { s with sp := 0x0000, f := ⟨false, false, true, true⟩, pc := 0x0102 }) = true := by decide

/-- `ADD SP,e8`, R201: -1 from 0 gives 0xFFFF, C=0. -/
theorem test_addSpE8_2 : stepsTo (before 0x0100 [0xE8, 0xFF] [] { zeroed with sp := 0x0000 })
    (fun s => { s with sp := 0xFFFF, f := ⟨false, false, false, false⟩, pc := 0x0102 }) = true := by decide

/-- `INC BC`, R202: carry into B, flags kept. -/
theorem test_incRr : stepsTo (before 0x0100 [0x03] [] { zeroed with b := 0x00, c := 0xFF, f := ⟨true, false, true, false⟩ })
    (fun s => { s with b := 0x01, c := 0x00, f := ⟨true, false, true, false⟩, pc := 0x0101 }) = true := by decide

/-- `INC SP`, R202: wrap, Z not set. -/
theorem test_incRr_2 : stepsTo (before 0x0100 [0x33] [] { zeroed with sp := 0xFFFF })
    (fun s => { s with sp := 0x0000, f := ⟨false, false, false, false⟩, pc := 0x0101 }) = true := by decide

/-- `DEC DE`, R203. -/
theorem test_decRr : stepsTo (before 0x0100 [0x1B] [] { zeroed with d := 0x01, e := 0x00 })
    (fun s => { s with d := 0x00, e := 0xFF, f := ⟨false, false, false, false⟩, pc := 0x0101 }) = true := by decide

/-- `DEC HL`, R203: 1 -> 0, Z not set. -/
theorem test_decRr_2 : stepsTo (before 0x0100 [0x2B] [] { zeroed with h := 0x00, l := 0x01 })
    (fun s => { s with l := 0x00, f := ⟨false, false, false, false⟩, pc := 0x0101 }) = true := by decide

/-- `RLCA`, R220: Z kept. -/
theorem test_rlca : stepsTo (before 0x0100 [0x07] [] { zeroed with a := 0x85, f := ⟨true, false, false, false⟩ })
    (fun s => { s with a := 0x0B, f := ⟨true, false, false, true⟩, pc := 0x0101 }) = true := by decide

/-- `RLCA`, R220: A=0 keeps Z=0. -/
theorem test_rlca_2 : stepsTo (before 0x0100 [0x07] [] { zeroed with a := 0x00 })
    (fun s => { s with a := 0x00, f := ⟨false, false, false, false⟩, pc := 0x0101 }) = true := by decide

/-- `RRCA`, R221: Z cleared. -/
theorem test_rrca : stepsTo (before 0x0100 [0x0F] [] { zeroed with a := 0x3B, f := ⟨true, false, false, false⟩ })
    (fun s => { s with a := 0x9D, f := ⟨false, false, false, true⟩, pc := 0x0101 }) = true := by decide

/-- `RLA`, R222: bit0 = old b7 OR C. -/
theorem test_rla : stepsTo (before 0x0100 [0x17] [] { zeroed with a := 0x95, f := ⟨true, false, false, true⟩ })
    (fun s => { s with a := 0x2B, f := ⟨true, false, false, true⟩, pc := 0x0101 }) = true := by decide

/-- `RLA`, R222: 0x01 with C=1 -> 0x03. -/
theorem test_rla_2 : stepsTo (before 0x0100 [0x17] [] { zeroed with a := 0x01, f := ⟨false, false, false, true⟩ })
    (fun s => { s with a := 0x03, f := ⟨false, false, false, false⟩, pc := 0x0101 }) = true := by decide

/-- `RRA`, R223. -/
theorem test_rra : stepsTo (before 0x0100 [0x1F] [] { zeroed with a := 0x81, f := ⟨true, false, false, false⟩ })
    (fun s => { s with a := 0xC0, f := ⟨false, false, false, true⟩, pc := 0x0101 }) = true := by decide

/-- `RRA`, R223: 0x80 with C=1 -> 0xC0. -/
theorem test_rra_2 : stepsTo (before 0x0100 [0x1F] [] { zeroed with a := 0x80, f := ⟨false, false, false, true⟩ })
    (fun s => { s with a := 0xC0, f := ⟨false, false, false, false⟩, pc := 0x0101 }) = true := by decide

/-- `RLC B`, R224. -/
theorem test_rlcR : stepsTo (before 0x0100 [0xCB, 0x00] [] { zeroed with b := 0x85, f := ⟨true, false, false, false⟩ })
    (fun s => { s with b := 0x0B, f := ⟨true, false, false, true⟩, pc := 0x0102 }) = true := by decide

/-- `RLC (HL)`, R225. -/
theorem test_rlcMem : stepsTo (before 0x0100 [0xCB, 0x06] [(0xC000, 0x00)] { zeroed with h := 0xC0, l := 0x00 })
    (fun s => { s with f := ⟨false, false, false, false⟩, pc := 0x0102 }) = true := by decide

/-- `RRC C`, R226: 0 gives Z=0. -/
theorem test_rrcR : stepsTo (before 0x0100 [0xCB, 0x09] [] { zeroed with c := 0x00, f := ⟨true, false, false, false⟩ })
    (fun s => { s with f := ⟨false, false, false, false⟩, pc := 0x0102 }) = true := by decide

/-- `RRC (HL)`, R227. -/
theorem test_rrcMem : stepsTo (before 0x0100 [0xCB, 0x0E] [(0xC000, 0x01)] { zeroed with h := 0xC0, l := 0x00 })
    (fun s => { s with f := ⟨false, false, false, true⟩, pc := 0x0102, mem := memWrite s.mem 0xC000 0x80 }) = true := by decide

/-- `RL D`, R228. -/
theorem test_rlR : stepsTo (before 0x0100 [0xCB, 0x12] [] { zeroed with d := 0x80 })
    (fun s => { s with d := 0x01, f := ⟨false, false, false, true⟩, pc := 0x0102 }) = true := by decide

/-- `RL (HL)`, R229. -/
theorem test_rlMem : stepsTo (before 0x0100 [0xCB, 0x16] [(0xC000, 0x01)] { zeroed with h := 0xC0, l := 0x00, f := ⟨false, false, false, true⟩ })
    (fun s => { s with f := ⟨false, false, false, false⟩, pc := 0x0102, mem := memWrite s.mem 0xC000 0x03 }) = true := by decide

/-- `RR E`, R230. -/
theorem test_rrR : stepsTo (before 0x0100 [0xCB, 0x1B] [] { zeroed with e := 0x01, f := ⟨false, false, false, true⟩ })
    (fun s => { s with e := 0x80, f := ⟨false, false, false, true⟩, pc := 0x0102 }) = true := by decide

/-- `RR (HL)`, R231. -/
theorem test_rrMem : stepsTo (before 0x0100 [0xCB, 0x1E] [(0xC000, 0x80)] { zeroed with h := 0xC0, l := 0x00, f := ⟨false, false, false, true⟩ })
    (fun s => { s with f := ⟨false, false, false, false⟩, pc := 0x0102, mem := memWrite s.mem 0xC000 0xC0 }) = true := by decide

/-- `SLA H`, R232: 0x80 -> 0, Z=1. -/
theorem test_slaR : stepsTo (before 0x0100 [0xCB, 0x24] [] { zeroed with h := 0x80 })
    (fun s => { s with h := 0x00, f := ⟨true, false, false, true⟩, pc := 0x0102 }) = true := by decide

/-- `SLA (HL)`, R233. -/
theorem test_slaMem : stepsTo (before 0x0100 [0xCB, 0x26] [(0xC000, 0x41)] { zeroed with h := 0xC0, l := 0x00 })
    (fun s => { s with f := ⟨false, false, false, false⟩, pc := 0x0102, mem := memWrite s.mem 0xC000 0x82 }) = true := by decide

/-- `SRA L`, R234: sign kept. -/
theorem test_sraR : stepsTo (before 0x0100 [0xCB, 0x2D] [] { zeroed with l := 0x81 })
    (fun s => { s with l := 0xC0, f := ⟨false, false, false, true⟩, pc := 0x0102 }) = true := by decide

/-- `SRA (HL)`, R235: 0x01 -> 0, Z=1. -/
theorem test_sraMem : stepsTo (before 0x0100 [0xCB, 0x2E] [(0xC000, 0x01)] { zeroed with h := 0xC0, l := 0x00 })
    (fun s => { s with f := ⟨true, false, false, true⟩, pc := 0x0102, mem := memWrite s.mem 0xC000 0x00 }) = true := by decide

/-- `SWAP A`, R236: C cleared. -/
theorem test_swapR : stepsTo (before 0x0100 [0xCB, 0x37] [] { zeroed with a := 0xF1, f := ⟨false, false, false, true⟩ })
    (fun s => { s with a := 0x1F, f := ⟨false, false, false, false⟩, pc := 0x0102 }) = true := by decide

/-- `SWAP A`, R236: 0 gives Z=1. -/
theorem test_swapR_2 : stepsTo (before 0x0100 [0xCB, 0x37] [] { zeroed with a := 0x00 })
    (fun s => { s with a := 0x00, f := ⟨true, false, false, false⟩, pc := 0x0102 }) = true := by decide

/-- `SWAP (HL)`, R237. -/
theorem test_swapMem : stepsTo (before 0x0100 [0xCB, 0x36] [(0xC000, 0xAB)] { zeroed with h := 0xC0, l := 0x00 })
    (fun s => { s with f := ⟨false, false, false, false⟩, pc := 0x0102, mem := memWrite s.mem 0xC000 0xBA }) = true := by decide

/-- `SRL B`, R238. -/
theorem test_srlR : stepsTo (before 0x0100 [0xCB, 0x38] [] { zeroed with b := 0xFF })
    (fun s => { s with b := 0x7F, f := ⟨false, false, false, true⟩, pc := 0x0102 }) = true := by decide

/-- `SRL (HL)`, R239: 0x01 -> 0, Z=1. -/
theorem test_srlMem : stepsTo (before 0x0100 [0xCB, 0x3E] [(0xC000, 0x01)] { zeroed with h := 0xC0, l := 0x00 })
    (fun s => { s with f := ⟨true, false, false, true⟩, pc := 0x0102, mem := memWrite s.mem 0xC000 0x00 }) = true := by decide

/-- `BIT 4,A`, R250: §8 scenario: 0x0F bit 4 -> Z=1, H=1, C kept. -/
theorem test_bitBR : stepsTo (before 0x0100 [0xCB, 0x67] [] { zeroed with a := 0x0F, f := ⟨false, false, false, true⟩ })
    (fun s => { s with a := 0x0F, f := ⟨true, false, true, true⟩, pc := 0x0102 }) = true := by decide

/-- `BIT 7,H`, R250. -/
theorem test_bitBR_2 : stepsTo (before 0x0100 [0xCB, 0x7C] [] { zeroed with h := 0x80 })
    (fun s => { s with f := ⟨false, false, true, false⟩, pc := 0x0102 }) = true := by decide

/-- `BIT 0,(HL)`, R251: no write. -/
theorem test_bitBMem : stepsTo (before 0x0100 [0xCB, 0x46] [(0xC000, 0xFE)] { zeroed with h := 0xC0, l := 0x00 })
    (fun s => { s with f := ⟨true, false, true, false⟩, pc := 0x0102 }) = true := by decide

/-- `RES 3,A`, R252: flags kept. -/
theorem test_resBR : stepsTo (before 0x0100 [0xCB, 0x9F] [] { zeroed with a := 0xFF, f := ⟨true, false, true, false⟩ })
    (fun s => { s with a := 0xF7, f := ⟨true, false, true, false⟩, pc := 0x0102 }) = true := by decide

/-- `RES 0,(HL)`, R253: result 0 does not set Z. -/
theorem test_resBMem : stepsTo (before 0x0100 [0xCB, 0x86] [(0xC000, 0x01)] { zeroed with h := 0xC0, l := 0x00 })
    (fun s => { s with f := ⟨false, false, false, false⟩, pc := 0x0102, mem := memWrite s.mem 0xC000 0x00 }) = true := by decide

/-- `SET 7,B`, R254. -/
theorem test_setBR : stepsTo (before 0x0100 [0xCB, 0xF8] [] { zeroed with b := 0x00 })
    (fun s => { s with b := 0x80, f := ⟨false, false, false, false⟩, pc := 0x0102 }) = true := by decide

/-- `SET 0,A`, R254: already set. -/
theorem test_setBR_2 : stepsTo (before 0x0100 [0xCB, 0xC7] [] { zeroed with a := 0x01, f := ⟨false, true, false, false⟩ })
    (fun s => { s with a := 0x01, f := ⟨false, true, false, false⟩, pc := 0x0102 }) = true := by decide

/-- `SET 4,(HL)`, R255. -/
theorem test_setBMem : stepsTo (before 0x0100 [0xCB, 0xE6] [(0xC000, 0x00)] { zeroed with h := 0xC0, l := 0x00 })
    (fun s => { s with f := ⟨false, false, false, false⟩, pc := 0x0102, mem := memWrite s.mem 0xC000 0x10 }) = true := by decide

/-- `JP a16`, R273: §8 scenario. -/
theorem test_jpA16 : stepsTo (before 0x0000 [0xC3, 0x99, 0xBA] [] zeroed)
    (fun s => { s with f := ⟨false, false, false, false⟩, pc := 0xBA99 }) = true := by decide

/-- `JP a16`, R273: high byte at 0x0000 after wrap. -/
theorem test_jpA16_2 : stepsTo (before 0xFFFE [0xC3, 0x00, 0x80] [] zeroed)
    (fun s => { s with f := ⟨false, false, false, false⟩, pc := 0x8000 }) = true := by decide

/-- `JP Z,a16`, R274: not taken, pc+3. -/
theorem test_jpCcA16 : stepsTo (before 0x0200 [0xCA, 0x00, 0x30] [] zeroed)
    (fun s => { s with f := ⟨false, false, false, false⟩, pc := 0x0203 }) = true := by decide

/-- `JP C,a16`, R274: taken. -/
theorem test_jpCcA16_2 : stepsTo (before 0x0200 [0xDA, 0x34, 0x12] [] { zeroed with f := ⟨false, false, false, true⟩ })
    (fun s => { s with f := ⟨false, false, false, true⟩, pc := 0x1234 }) = true := by decide

/-- `JR e8`, R275: §8 scenario, -8. -/
theorem test_jrE8 : stepsTo (before 0xBA99 [0x18, 0xF8] [] zeroed)
    (fun s => { s with f := ⟨false, false, false, false⟩, pc := 0xBA93 }) = true := by decide

/-- `JR e8`, R275: wraps past 0xFFFF. -/
theorem test_jrE8_2 : stepsTo (before 0xFFF0 [0x18, 0x7F] [] zeroed)
    (fun s => { s with f := ⟨false, false, false, false⟩, pc := 0x0071 }) = true := by decide

/-- `JR Z,e8`, R276: not taken, pc+2. -/
theorem test_jrCcE8 : stepsTo (before 0x0104 [0x28, 0x10] [] zeroed)
    (fun s => { s with f := ⟨false, false, false, false⟩, pc := 0x0106 }) = true := by decide

/-- `JR NC,e8`, R276: taken, -128. -/
theorem test_jrCcE8_2 : stepsTo (before 0x0200 [0x30, 0x80] [] zeroed)
    (fun s => { s with f := ⟨false, false, false, false⟩, pc := 0x0182 }) = true := by decide

/-- `JP HL`, R277. -/
theorem test_jpHl : stepsTo (before 0x0150 [0xE9] [] { zeroed with h := 0x40, l := 0x00 })
    (fun s => { s with f := ⟨false, false, false, false⟩, pc := 0x4000 }) = true := by decide

/-- `(Unknown 0x76, SM83 HALT)`, R300. -/
theorem test_unknown : stepsTo (before 0x0100 [0x76] [] zeroed)
    (fun s => { s with f := ⟨false, false, false, false⟩, pc := 0x0100, status := .fault false 0x76 }) = true := by decide

/-- `(Unknown 0xCD, SM83 CALL)`, R300: no SP change. -/
theorem test_unknown_2 : stepsTo (before 0x0100 [0xCD, 0x00, 0x10] [] { zeroed with sp := 0xFFFE })
    (fun s => { s with f := ⟨false, false, false, false⟩, pc := 0x0100, status := .fault false 0xCD }) = true := by decide

/-! ## Witnesses: for each obligation with hypotheses, a state and operands that meet them -/

/-- HL at 0xC000, which holds `v`, and the bytes at pc 0x0100. -/
def atHl (bytes : List Byte) (v : Byte) : State := before 0x0100 bytes [(0xC000, v)] { zeroed with h := 0xC0 }

theorem witness_ByteTargets : ∀ d8, ByteTarget.memHl ≠ .imm d8 := nofun

theorem witness_EqualReadsEqualMemory : ∃ m m' : Memory,
    m.wf = true ∧ m'.wf = true ∧ ∀ a : Word, memRead m a = memRead m' a :=
  ⟨[(0xC000, 0x01)], memWrite (memWrite [] 0xFFFF 0x00) 0xC000 0x01, by decide, by decide, fun _ => rfl⟩

theorem witness_DecodeOfEncode :
    (Instr.bitBR 7 .a).wellFormed = true ∧ (Instr.bitBMem 0).wellFormed = true ∧ (Instr.jrCcE8 .carry 0x80).wellFormed = true ∧
    (Instr.jpCcA16 .notZero 0xFFFF).wellFormed = true ∧ Instr.jpHl.wellFormed = true := by decide

theorem witness_EncodeOfDecode : decode 0xFE 0x3C 0x00 = .ok (.cpAD8 0x3C) ∧ decode 0xCB 0xFF 0x00 = .ok (.setBR 7 .a) := ⟨rfl, rfl⟩

theorem witness_UnprefixedUnknownBytes :
    0x00 ∈ unknownBytes ∧ 0x40 ∈ unknownBytes ∧ 0x7F ∈ unknownBytes ∧ 0xFF ∈ unknownBytes ∧
    (0x3F : Byte) ≠ 0xCB ∧ 0x3F ∉ unknownBytes ∧ 0x80 ∉ unknownBytes ∧ 0xFE ∉ unknownBytes := by decide

/-- A core that withholds 0xFF of the extended space (the scenario S13 of 95_test_vectors.md). -/
def withholdFf (prefixed : Bool) (op : Byte) : Bool := !(prefixed && decide (op = 0xFF))

theorem witness_EveryPrefixedByteDecodes :
    let s := before 0x0100 [0xCB, 0xFF] [] zeroed
    s.status = .running ∧ memRead s.mem s.pc = 0xCB ∧ memRead s.mem (s.pc + 1) = 0xFF ∧ withholdFf true 0xFF = false := by decide

theorem witness_LengthFromFirstByte :
    decode 0xCB 0x00 0x00 = .ok (.rlcR .b) ∧ decode 0x38 0x05 0x00 = .ok (.jrCcE8 .carry 0x05) ∧
    decode 0xC3 0x99 0xBA = .ok (.jpA16 0xBA99) ∧ decode 0xE9 0x00 0x00 = .ok .jpHl ∧
    0xCB ∈ twoByteLeads ∧ 0x38 ∈ twoByteLeads ∧ 0xC3 ∈ threeByteLeads ∧ 0xE9 ∉ twoByteLeads ∧ 0xE9 ∉ threeByteLeads :=
  ⟨rfl, rfl, rfl, rfl, by decide, by decide, by decide, by decide, by decide⟩

theorem witness_StepRunsTheDecodedInstruction :
    let s := before 0xFFFF [0xC6, 0x01] [] zeroed
    s.status = .running ∧
    decode (memRead s.mem s.pc) (memRead s.mem (s.pc + 1)) (memRead s.mem (s.pc + 2)) = .ok (.addAD8 0x01) := ⟨rfl, rfl⟩

theorem witness_StepRunsEncodedInstruction :
    let s := before 0xFFFE [0xC3, 0x00, 0x80] [] zeroed
    let i := Instr.jpA16 0x8000
    s.status = .running ∧ i.wellFormed = true ∧
    ∀ k, k < (encode i).length → memRead s.mem (s.pc + BitVec.ofNat 16 k) = (encode i).getD k 0 := by decide

/-- The first bytes that the clauses of `ImmediatesFollowTheOpcode` name, clause by clause. -/
def immediateLeads : List Byte :=
  [0xC6, 0xCE, 0xD6, 0xDE, 0xE6, 0xEE, 0xF6, 0xFE, 0xE8, 0x18] ++
  [opCond 0x20 .notZero, opCond 0x20 .zero, opCond 0x20 .notCarry, opCond 0x20 .carry] ++ [0xC3] ++
  [opCond 0xC2 .notZero, opCond 0xC2 .zero, opCond 0xC2 .notCarry, opCond 0xC2 .carry] ++
  [opPair 0x09 .bc, opPair 0x09 .de, opPair 0x09 .hl, opPair 0x09 .sp] ++
  [opPair 0x03 .bc, opPair 0x03 .de, opPair 0x03 .hl, opPair 0x03 .sp] ++
  [opPair 0x0B .bc, opPair 0x0B .de, opPair 0x0B .hl, opPair 0x0B .sp]

/-- Each clause is met by a running state with its byte at pc, and no byte falls under two clauses. -/
theorem witness_ImmediatesFollowTheOpcode :
    immediateLeads.all (fun b0 =>
      let s := before 0x0100 [b0, 0x99, 0xBA] [] zeroed
      decide (s.status = .running ∧ memRead s.mem s.pc = b0)) = true ∧ immediateLeads.Nodup := by decide

theorem witness_UnknownInstructionFaults :
    let s := before 0x0100 [0x76] [] zeroed
    let s' := before 0x0100 [0xCB, 0xFF] [] zeroed
    s.status = .running ∧ fetchDecode Config.admitted s = .error ⟨false, 0x76⟩ ∧ memRead s.mem s.pc ∈ unknownBytes ∧
    s'.status = .running ∧ fetchDecode withholdFf s' = .error ⟨true, 0xFF⟩ := ⟨rfl, rfl, by decide, rfl, rfl⟩

theorem witness_FaultedCoreStays : { zeroed with status := .fault false 0x76 }.status = .fault false 0x76 := rfl

theorem witness_OnlyADecodeFailureChangesStatus :
    ∃ s t : State, step s = .next t ∧ t.status ≠ s.status := ⟨before 0x0100 [0x76] [] zeroed, _, rfl, by decide⟩

/-- Both clauses, with and without the prefix mark. -/
theorem witness_WithholdingOnlyFaults :
    let s := before 0x0100 [0xCB, 0xFF] [] zeroed
    let s' := before 0x0100 [0x80] [] zeroed
    s.status = .running ∧ memRead s.mem s.pc = 0xCB ∧ withholdFf true (memRead s.mem (s.pc + 1)) = false ∧
    s'.status = .running ∧ memRead s'.mem s'.pc ≠ 0xCB ∧ withholdFf false (memRead s'.mem s'.pc) = true := by decide

theorem witness_ResetMeetsTheInvariant : Memory.wf [(0x0000, 0x3C), (0xFFFF, 0x01)] = true := by decide

/-- A running state whose step stores, and one whose step faults. -/
theorem witness_EveryStepKeepsTheInvariant :
    (∃ s t : State, Inv s ∧ step s = .next t ∧ t.status = .running ∧ t.mem ≠ s.mem) ∧
    (∃ s t : State, Inv s ∧ step s = .next t ∧ t.status = .fault false 0x76) ∧
    (∃ s t : State, Inv s ∧ s.status = .fault false 0x76 ∧ step s = .next t) :=
  ⟨⟨atHl [0x34] 0x7F, _, ⟨by decide, trivial⟩, rfl, by decide, by decide⟩,
   ⟨before 0x0100 [0x76] [] zeroed, _, ⟨by decide, trivial⟩, rfl, by decide⟩,
   ⟨{ before 0x0100 [0x76] [] zeroed with status := .fault false 0x76 }, _, ⟨by decide, rfl⟩, rfl, rfl⟩⟩

theorem witness_SelfLoopLeavesTheState :
    let s := before 0x0300 [0x18, 0xFE] [] zeroed
    let s' := before 0xFFFE [0xC3, 0xFE, 0xFF] [] zeroed
    s.status = .running ∧ memRead s.mem s.pc = 0x18 ∧ memRead s.mem (s.pc + 1) = 0xFE ∧
    s'.status = .running ∧ memRead s'.mem s'.pc = 0xC3 ∧
    s'.pc.toNat = (memRead s'.mem (s'.pc + 2)).toNat * 256 + (memRead s'.mem (s'.pc + 1)).toNat := by decide

/-- The three clauses: a store into the opcode byte, any store, and a store into the next byte. -/
theorem witness_StoreIntoOwnBytes :
    (let s := before 0xC000 [0x34] [] { zeroed with h := 0xC0 }
     s.status = .running ∧ memRead s.mem s.pc = 0x34 ∧ getHl s = s.pc) ∧
    (∃ t, step (atHl [0x34] 0x7F) = .next t ∧ fetchDecode Config.admitted (atHl [0x34] 0x7F) = .ok .incMem ∧
      storeAddress .incMem (atHl [0x34] 0x7F) = some 0xC000) ∧
    (let s := before 0xBFFF [0x34, 0x3B] [] { zeroed with h := 0xC0 }
     s.status = .running ∧ memRead s.mem s.pc = 0x34 ∧ getHl s = s.pc + 1 ∧ ∃ t, step s = .next t) :=
  ⟨by decide, ⟨_, rfl, rfl, by decide⟩, rfl, by decide, by decide, _, rfl⟩

/-- The clause on a negative displacement: one state where C is set after it and one where it is not. -/
theorem witness_AddSpDisplacement :
    (0xFF : Byte).getLsbD 7 = true ∧
    (∃ t, exec (.addSpE8 0xFF) { zeroed with sp := 0x0001 } = .next t ∧ t.f.c = true) ∧
    (∃ t, exec (.addSpE8 0xFF) zeroed = .next t ∧ t.f.c = false) := ⟨by decide, ⟨_, rfl, by decide⟩, _, rfl, by decide⟩

/-- The bit index of `BitTestForms`, `BitChangeForms` at both ends, and of `BitIndexOutOfRangeDoesNothing` at both ends. -/
theorem witness_BitIndexes :
    (0 : Byte).toNat ≤ 7 ∧ (7 : Byte).toNat ≤ 7 ∧ 7 < (8 : Byte).toNat ∧ 7 < (0xFF : Byte).toNat ∧
    decode 0xCB 0x7C 0x00 = .ok (.bitBR 7 .h) := ⟨by decide, by decide, by decide, by decide, rfl⟩

/-- The conditions of `AbsoluteJumps` and `RelativeJumps`. -/
theorem witness_Conditions : Cond.notZero ≠ .always ∧ Cond.zero ≠ .always ∧ Cond.notCarry ≠ .always ∧ Cond.carry ≠ .always := by decide

theorem witness_NextPcTable :
    let s := before 0x0100 [0xFF] [] zeroed
    s.status = .running ∧ fetchDecode Config.admitted s = .error ⟨false, 0xFF⟩ := ⟨rfl, rfl⟩

/-- A register form and a pair form, each with a register it does not write. -/
theorem witness_ByteRegisterFrame :
    (∃ t, exec (.incR .l) zeroed = .next t ∧ Reg8.h ∉ regsWritten (.incR .l)) ∧
    (∃ t, exec (.addHlRr .bc) zeroed = .next t ∧ Reg8.b ∉ regsWritten (.addHlRr .bc)) :=
  ⟨⟨_, rfl, by decide⟩, _, rfl, by decide⟩

theorem witness_StackPointerFrame :
    (∃ t, exec (.addHlRr .sp) zeroed = .next t ∧ writesSp (.addHlRr .sp) = false) ∧
    (∃ t, exec (.incRr .hl) zeroed = .next t ∧ writesSp (.incRr .hl) = false ∧ Instr.incRr .hl ≠ .addHlRr .sp) :=
  ⟨⟨_, rfl, by decide⟩, _, rfl, by decide, by decide⟩

/-- An instruction that writes no flag, one that keeps only Z, and one that keeps only C. -/
theorem witness_FlagFrame :
    (∃ t, exec .jpHl zeroed = .next t ∧ flagsWritten .jpHl = ⟨false, false, false, false⟩) ∧
    (∃ t, exec .scf zeroed = .next t ∧ (flagsWritten .scf).z = false) ∧
    (∃ t, exec .incMem zeroed = .next t ∧ (flagsWritten .incMem).c = false) :=
  ⟨⟨_, rfl, by decide⟩, ⟨_, rfl, by decide⟩, _, rfl, by decide⟩

/-- A form that stores, at the top of memory, and a form that does not. -/
theorem witness_MemoryFrame :
    (∃ t, exec .rlcMem { zeroed with h := 0xFF, l := 0xFF } = .next t ∧
      storeAddress .rlcMem { zeroed with h := 0xFF, l := 0xFF } = some 0xFFFF ∧ (0x0000 : Word) ≠ 0xFFFF) ∧
    (∃ t, exec (.bitBMem 0) zeroed = .next t ∧ storeAddress (.bitBMem 0) zeroed = none) :=
  ⟨⟨_, rfl, by decide, by decide⟩, _, rfl, rfl⟩

theorem witness_StepWritesAtMostOneByte :
    ∃ s t : State, step s = .next t ∧ (0xC001 : Word) ≠ getHl s ∧ ∃ a : Word, memRead t.mem a ≠ memRead s.mem a :=
  ⟨atHl [0x34] 0x7F, _, rfl, by decide, 0xC000, by decide⟩

theorem witness_FlagReaders : readsCarry (.adcAR .b) = false ∧ readsZero .rlca = false := by decide

/-- Both carries that the second rotate may be given. -/
theorem witness_ThroughCarryRoundTrip : ∃ f g : Flags, g.c = f.c ∧ ∃ g', g' = (aluRotateLeftThroughCarry 0x01 f).2 ∧ g'.c ≠ f.c :=
  ⟨⟨false, false, false, true⟩, ⟨true, true, true, true⟩, rfl, _, rfl, by decide⟩

end Sys2Proof.Tests
end

section
/-! The state of the core (10_state.md): the flag byte, the register pairs, and which instructions read or write SP. -/

namespace Sys2Proof.Machine

open Sys2Proof.Safety

/-! ## The flag byte (R22 to R24) -/

/-- R22: the four flags stand in four different bits, so packing them by OR is packing them by addition. -/
theorem flagsToByte_eq_sum (f : Flags) : flagsToByte f =
    (if f.z then 0x80 else 0) + (if f.n then 0x40 else 0) + (if f.h then 0x20 else 0) + (if f.c then 0x10 else 0) := by
  obtain ⟨z, n, h, c⟩ := f
  revert z n h c
  decide

/-- R24, from the flags: no flag is lost in the byte. -/
@[simp] theorem flagsFromByte_flagsToByte (f : Flags) : flagsFromByte (flagsToByte f) = f := by
  obtain ⟨z, n, h, c⟩ := f
  revert z n h c
  decide

/-- Bits 7 to 4 of the packed byte are Z, N, H, C and bits 3 to 0 are zero. -/
theorem flagsToByte_getLsbD (f : Flags) (i : Fin 8) : (flagsToByte f).getLsbD i =
    (![false, false, false, false, f.c, f.h, f.n, f.z] : Fin 8 → Bool) i := by
  obtain ⟨z, n, h, c⟩ := f
  revert z n h c i
  decide

/-- R24, from the byte: the low nibble is zeroed. -/
@[simp] theorem flagsToByte_flagsFromByte (b : Byte) : flagsToByte (flagsFromByte b) = b &&& 0xF0 := by
  apply BitVec.eq_of_getLsbD_eq
  intro i hi
  rw [flagsToByte_getLsbD _ ⟨i, hi⟩, BitVec.getLsbD_and]
  interval_cases i <;> simp [flagsFromByte]

/-- Settles O3: both conversions by their bits, both round trips by the lemmas above. -/
theorem flagByteForm : Obligations.FlagByteForm :=
  ⟨flagsToByte_eq_sum, fun _ => rfl, flagsToByte_flagsFromByte, flagsFromByte_flagsToByte⟩

/-! ## Register pairs (R26 to R30) -/

theorem getBc_toNat (s : State) : (getBc s).toNat = s.b.toNat * 256 + s.c.toNat := wordOfBytes_toNat ..
theorem getDe_toNat (s : State) : (getDe s).toNat = s.d.toNat * 256 + s.e.toNat := wordOfBytes_toNat ..
theorem getHl_toNat (s : State) : (getHl s).toNat = s.h.toNat * 256 + s.l.toNat := wordOfBytes_toNat ..
theorem getAf_toNat (s : State) : (getAf s).toNat = s.a.toNat * 256 + (flagsToByte s.f).toNat := wordOfBytes_toNat ..

@[simp] theorem getBc_setBc (v : Word) (s : State) : getBc (setBc v s) = v := wordOfBytes_hi_lo v
@[simp] theorem getDe_setDe (v : Word) (s : State) : getDe (setDe v s) = v := wordOfBytes_hi_lo v
@[simp] theorem getHl_setHl (v : Word) (s : State) : getHl (setHl v s) = v := wordOfBytes_hi_lo v

/-- The round trip of AF zeroes the low nibble of F (R24, R29). -/
@[simp] theorem getAf_setAf (v : Word) (s : State) : getAf (setAf v s) = v &&& 0xFFF0 := by
  calc getAf (setAf v s)
      = wordOfBytes (hiByte v) (loByte v &&& 0xF0) := by simp [getAf]
    _ = wordOfBytes (hiByte v &&& 0xFF) (loByte v &&& 0xF0) := by
        rw [show (0xFF : Byte) = BitVec.allOnes 8 from rfl, BitVec.and_allOnes]
    _ = wordOfBytes (hiByte v) (loByte v) &&& wordOfBytes 0xFF 0xF0 := BitVec.and_append.symm
    _ = v &&& 0xFFF0 := by rw [wordOfBytes_hi_lo]; rfl

theorem word_toNat_eq_hi_lo (v : Word) : v.toNat = (hiByte v).toNat * 256 + (loByte v).toNat := by
  rw [← wordOfBytes_toNat, wordOfBytes_hi_lo]

/-- Settles O4: the packing and the round trips by the lemmas above; the bytes a pair write stores are `hiByte v` and
`loByte v`. -/
theorem pairsAreViewsHighByteFirst : Obligations.PairsAreViewsHighByteFirst := by
  refine ⟨?packing, ?roundTrip, ?pairWrite, ?registerWrite⟩
  case packing => exact fun s => ⟨getBc_toNat s, getDe_toNat s, getHl_toNat s, getAf_toNat s⟩
  case roundTrip => exact fun v s => ⟨getBc_setBc v s, getDe_setDe v s, getHl_setHl v s, getAf_setAf v s⟩
  case pairWrite => exact fun v _ => ⟨hiByte v, loByte v, word_toNat_eq_hi_lo v, rfl, rfl, rfl, rfl⟩
  case registerWrite =>
    exact fun _ _ => ⟨getBc_toNat _, getBc_toNat _, getDe_toNat _, getDe_toNat _, getHl_toNat _, getHl_toNat _, getAf_toNat _⟩

/-! ## A write of SP commutes with every operation that does not name SP (R25)

`writeWord .sp v s` is `{ s with sp := v }`. -/

@[simp] theorem readReg_writeSp (r : Reg8) (v : Word) (s : State) : readReg r (writeWord .sp v s) = readReg r s := by
  cases r <;> rfl

@[simp] theorem getHl_writeSp (v : Word) (s : State) : getHl (writeWord .sp v s) = getHl s := rfl

@[simp] theorem resolveByte_writeSp (t : ByteTarget) (v : Word) (s : State) :
    resolveByte t (writeWord .sp v s) = resolveByte t s := by
  cases t with
  | reg r => rw [resolveByte_reg, resolveByte_reg, readReg_writeSp]
  | memHl => rfl
  | imm d => rfl

theorem writeByte_writeSp (t : ByteTarget) (x : Byte) (v : Word) (s : State) :
    writeByte t x (writeWord .sp v s) = writeWord .sp v (writeByte t x s) := by
  cases t with
  | reg r => cases r <;> rfl
  | memHl => rfl
  | imm d => rfl

theorem resolveWord_writeSp {p : WordTarget} (hp : p ≠ .sp) (v : Word) (s : State) :
    resolveWord p (writeWord .sp v s) = resolveWord p s := by
  cases p with
  | sp => exact absurd rfl hp
  | bc | de | hl => rfl

theorem writeWord_writeSp {p : WordTarget} (hp : p ≠ .sp) (x v : Word) (s : State) :
    writeWord p x (writeWord .sp v s) = writeWord .sp v (writeWord p x s) := by
  cases p with
  | sp => exact absurd rfl hp
  | bc | de | hl => rfl

theorem aluOnA_writeSp (op : Byte → Byte → Flags → Byte × Flags) (t : ByteTarget) (v : Word) (s : State) :
    aluOnA op t (writeWord .sp v s) = writeWord .sp v (aluOnA op t s) := by
  rw [aluOnA_eq, resolveByte_writeSp]; rfl

theorem compareOnA_writeSp (t : ByteTarget) (v : Word) (s : State) :
    compareOnA t (writeWord .sp v s) = writeWord .sp v (compareOnA t s) := by
  rw [compareOnA_eq, resolveByte_writeSp]; rfl

theorem modifyByte_writeSp (op : Byte → Flags → Byte × Flags) (t : ByteTarget) (n : Nat) (v : Word) (s : State) :
    modifyByte op t n (writeWord .sp v s) = writeWord .sp v (modifyByte op t n s) := by
  rw [modifyByte_eq, resolveByte_writeSp, writeByte_writeSp]; rfl

theorem testBit_writeSp (b : Byte) (t : ByteTarget) (v : Word) (s : State) :
    testBit b t (writeWord .sp v s) = writeWord .sp v (testBit b t s) := by
  rw [testBit_eq, resolveByte_writeSp]; rfl

theorem changeBit_writeSp (op : Byte → Byte → Byte) (b : Byte) (t : ByteTarget) (v : Word) (s : State) :
    changeBit op b t (writeWord .sp v s) = writeWord .sp v (changeBit op b t s) := by
  rw [changeBit_eq, resolveByte_writeSp, writeByte_writeSp]; rfl

/-- R25: an instruction that neither writes SP nor is ADD HL,SP runs alike whatever SP holds. -/
theorem exec_writeSp {i : Instr} {s t : State} (h : exec i s = .next t) (hw : writesSp i = false) (hi : i ≠ .addHlRr .sp)
    (v : Word) : exec i (writeWord .sp v s) = .next (writeWord .sp v t) := by
  cases i with
  | addAR | addAMem | addAD8 | adcAR | adcAMem | adcAD8 | subAR | subAMem | subAD8 | sbcAR | sbcAMem | sbcAD8
  | andAR | andAMem | andAD8 | xorAR | xorAMem | xorAD8 | orAR | orAMem | orAD8 =>
    cases h; exact congrArg _ (aluOnA_writeSp ..)
  | cpAR | cpAMem | cpAD8 => cases h; exact congrArg _ (compareOnA_writeSp ..)
  | incR | incMem | decR | decMem | cpl | rlca | rrca | rla | rra | rlcR | rlcMem | rrcR | rrcMem | rlR | rlMem | rrR | rrMem
  | slaR | slaMem | sraR | sraMem | swapR | swapMem | srlR | srlMem =>
    cases h; exact congrArg _ (modifyByte_writeSp ..)
  | bitBR | bitBMem => cases h; exact congrArg _ (testBit_writeSp ..)
  | resBR | resBMem | setBR | setBMem => cases h; exact congrArg _ (changeBit_writeSp ..)
  | ccf | scf | jpA16 | jpCcA16 | jrE8 | jrCcE8 | jpHl => cases h; rfl
  | addSpE8 => contradiction
  | addHlRr p =>
    have hp : p ≠ .sp := fun e => hi (congrArg _ e)
    cases h
    simp only [exec, execAddHlRr, resolveWord_writeSp hp]
    rfl
  | incRr p | decRr p =>
    have hp : p ≠ .sp := of_decide_eq_false hw
    cases h
    simp only [exec, execIncRr, execDecRr, resolveWord_writeSp hp, writeWord_writeSp hp]
    rfl

/-- Writing SP with the value it holds before is no write; so an instruction blind to SP leaves that value in it. -/
theorem exec_sp {i : Instr} {s t : State} (h : exec i s = .next t) (hw : writesSp i = false) : t.sp = s.sp := by
  by_cases hi : i = .addHlRr .sp
  · subst hi; cases h; rfl
  · have hself : t = writeWord .sp s.sp t := Host.Outcome.next.inj (h.symm.trans (exec_writeSp h hw hi s.sp))
    rw [hself]; rfl

theorem storeAddress_writeSp (i : Instr) (s : State) (v : Word) : storeAddress i (writeWord .sp v s) = storeAddress i s := by
  cases i with
  | incMem | decMem | rlcMem | rrcMem | rlMem | rrMem | slaMem | sraMem | swapMem | srlMem | resBMem | setBMem =>
    exact congrArg some (getHl_writeSp v s)
  | _ => rfl

/-- Settles O55: the first two clauses by the commutation of `exec` with a write of SP, the third because a store address is
HL. -/
theorem stackPointerFrame : Obligations.StackPointerFrame :=
  ⟨fun _ _ _ h hw => exec_sp h hw, fun _ _ _ v h hw hi => exec_writeSp h hw hi v, storeAddress_writeSp⟩

end Sys2Proof.Machine
end

section
/-! ## Word targets (R62): resolving reads the pair, writing sets it and nothing else -/

namespace Sys2Proof.Machine

/-- No word target holds A: AF is no word target. -/
@[simp] theorem writeWord_a (t : WordTarget) (v : Word) (s : State) : (writeWord t v s).a = s.a := by cases t <;> rfl

/-- A pair is two bytes, so its round trip is that of the bytes; SP is stored whole. -/
@[simp] theorem resolveWord_writeWord (t : WordTarget) (v : Word) (s : State) : resolveWord t (writeWord t v s) = v := by
  cases t with
  | bc => exact getBc_setBc v s
  | de => exact getDe_setDe v s
  | hl => exact getHl_setHl v s
  | sp => rfl

/-- Settles O6: the two case tables are the model's own, the round trip and the frame are lemmas over the target. -/
theorem wordTargetsResolveAndWrite : Obligations.WordTargetsResolveAndWrite := by
  refine ⟨?resolve, ?write, resolveWord_writeWord, ?frame⟩
  case resolve => exact fun _ => ⟨rfl, rfl, rfl, rfl⟩
  case write => exact fun _ _ => ⟨rfl, rfl, rfl, rfl⟩
  case frame =>
    exact fun t v s =>
      ⟨writeWord_mem t v s, writeWord_f t v s, writeWord_a t v s, writeWord_pc t v s, writeWord_status t v s⟩

end Sys2Proof.Machine
end

section
/-! The decoder (30_encoding.md): what `decodeOp` answers, and the opcode bytes of the forms that hold an immediate, a pair or a
condition. -/

namespace Sys2Proof

open Sys2Proof.Machine Sys2Proof.Claims

/-! ## A row, and the decoder over the rows (R82, R83) -/

/-- Whether a row makes an instruction depends on the opcode byte alone; the bytes after it only fill in operands. -/
theorem build_isSome_immediate_free {prefixed : Bool} {row : OpcodeRow} (hrow : row ∈ rowsOf prefixed)
    (op imm0 imm1 : Byte) : (row.build op imm0 imm1).isSome = (row.build op 0 0).isSome := by
  cases prefixed <;> fin_cases hrow <;> rfl

theorem read_isSome_eq_hits {prefixed : Bool} {row : OpcodeRow} (hrow : row ∈ rowsOf prefixed) (op imm0 imm1 : Byte) :
    (row.read op imm0 imm1).isSome = row.hits op := by
  unfold OpcodeRow.hits OpcodeRow.read
  split
  · exact build_isSome_immediate_free hrow op imm0 imm1
  · rfl

/-- An admitted byte that some row matches decodes, whatever follows it. -/
theorem exists_decodeOp_ok {admitted : Bool → Byte → Bool} {prefixed : Bool} {op : Byte}
    (hhit : ∃ row ∈ rowsOf prefixed, row.hits op = true) (hadm : admitted prefixed op = true) (imm0 imm1 : Byte) :
    ∃ i, decodeOp admitted prefixed op imm0 imm1 = .ok i := by
  obtain ⟨row, hrow, hop⟩ := hhit
  have hfound : ((rowsOf prefixed).findSome? fun row => row.read op imm0 imm1).isSome = true :=
    List.findSome?_isSome_iff.mpr ⟨row, hrow, (read_isSome_eq_hits hrow op imm0 imm1).trans hop⟩
  obtain ⟨i, hi⟩ := Option.isSome_iff_exists.mp hfound
  exact ⟨i, by simp only [decodeOp, hi, hadm, if_true]⟩

/-- A withheld byte does not decode, whether or not a row matches it. -/
theorem decodeOp_withheld {admitted : Bool → Byte → Bool} {prefixed : Bool} {op : Byte}
    (hadm : admitted prefixed op = false) (imm0 imm1 : Byte) :
    decodeOp admitted prefixed op imm0 imm1 = .error ⟨prefixed, op⟩ := by
  unfold decodeOp
  split
  · exact if_neg (by simp [hadm])
  · rfl

/-- The 22 rows of the extended space leave no byte out (R94). -/
theorem prefixedRows_hit_every_byte (op : Byte) : ∃ row ∈ rowsOf true, row.hits op = true := by
  have hall : ∀ op : Byte, (rowsOf true).any (·.hits op) = true := by decide
  exact List.any_eq_true.mp (hall op)

/-! ## Opcode bytes with a field in them (R87, R88) -/

theorem decode_addHlRr (p : WordTarget) (b1 b2 : Byte) : decode (opPair 0x09 p) b1 b2 = .ok (.addHlRr p) := by cases p <;> rfl
theorem decode_incRr (p : WordTarget) (b1 b2 : Byte) : decode (opPair 0x03 p) b1 b2 = .ok (.incRr p) := by cases p <;> rfl
theorem decode_decRr (p : WordTarget) (b1 b2 : Byte) : decode (opPair 0x0B p) b1 b2 = .ok (.decRr p) := by cases p <;> rfl

/-- `Always` has no field value, so no byte of this pattern holds it (45_jump.md R270). -/
theorem decode_jrCcE8 {cc : Cond} (hcc : cc ≠ .always) (e8 b2 : Byte) :
    decode (opCond 0x20 cc) e8 b2 = .ok (.jrCcE8 cc e8) := by
  cases cc with
  | always => exact absurd rfl hcc
  | notZero | zero | notCarry | carry => rfl

/-! ## 16-bit operands (R90) -/

/-- `hi ++ lo` is the address whose low byte is `lo`, as a number. -/
theorem wordOfBytes_eq_ofNat (hi lo : Byte) : wordOfBytes hi lo = BitVec.ofNat 16 (hi.toNat * 256 + lo.toNat) := by
  rw [← wordOfBytes_toNat, BitVec.ofNat_toNat, BitVec.setWidth_eq]

theorem decode_jpA16 (lo hi : Byte) : decode 0xC3 lo hi = .ok (.jpA16 (BitVec.ofNat 16 (hi.toNat * 256 + lo.toNat))) := by
  rw [← wordOfBytes_eq_ofNat]; rfl

theorem decode_jpCcA16 {cc : Cond} (hcc : cc ≠ .always) (lo hi : Byte) :
    decode (opCond 0xC2 cc) lo hi = .ok (.jpCcA16 cc (BitVec.ofNat 16 (hi.toNat * 256 + lo.toNat))) := by
  rw [← wordOfBytes_eq_ofNat]
  cases cc with
  | always => exact absurd rfl hcc
  | notZero | zero | notCarry | carry => rfl

/-- Sign extension adds 0xFF00 to a byte whose bit 7 is set (00_scope.md R9). -/
theorem sext16_eq_ite (e8 : Byte) : sext16 e8 = if e8.getLsbD 7 then e8.setWidth 16 + 0xFF00 else e8.setWidth 16 := by
  have hmsb : e8.msb = e8.getLsbD 7 := rfl
  have hlt : e8.toNat < 256 := e8.isLt
  apply BitVec.eq_of_toNat_eq
  rw [sext16, BitVec.toNat_signExtend, hmsb]
  split
  · have hoffset : (0xFF00 : Word).toNat = 0xFF00 := rfl
    rw [BitVec.toNat_add, BitVec.toNat_setWidth, hoffset]
    omega
  · rfl

/-- Settles O9: the codes of R88 as the model's tables and decoder give them, each by evaluation; that a register code is read
back is `reg8OfCode_reg8Code`. -/
theorem fieldCodings : Obligations.FieldCodings := by
  refine ⟨?registers, reg8OfCode_reg8Code, ?alu, ?pairs, ?conditions, ?extended, ?jpAlways, ?jrAlways⟩
  case registers => exact ⟨rfl, rfl, rfl, rfl, rfl, rfl, rfl, rfl, rfl⟩
  case alu => exact fun _ _ => ⟨rfl, rfl, rfl, rfl, rfl, rfl, rfl, rfl, rfl⟩
  case pairs => exact ⟨rfl, rfl, rfl, rfl⟩
  case conditions => exact ⟨rfl, rfl, rfl, rfl⟩
  case extended => exact fun _ => ⟨rfl, rfl, rfl, rfl, rfl, rfl, rfl, rfl, rfl, rfl, rfl⟩
  case jpAlways => exact fun _ _ => rfl
  case jrAlways => exact fun _ _ => rfl

end Sys2Proof
end

section
/-! A step of a running core, from what the bytes at pc decode to (30_encoding.md R80). -/

namespace Sys2Proof.Machine

open Sys2Proof.Claims

section Running

variable {admitted : Bool → Byte → Bool} {s : State} (hrun : s.status = .running)
include hrun

theorem stepWith_of_decoded {i : Instr} (hfetch : fetchDecode admitted s = .ok i) : stepWith admitted s = exec i s := by
  simp only [stepWith, hrun, hfetch]

theorem stepWith_of_unknown {u : Unknown} (hfetch : fetchDecode admitted s = .error u) :
    stepWith admitted s = .next (takeFault u s) := by
  simp only [stepWith, hrun, hfetch]

/-- The step of the default core, from the opcode byte at pc. -/
theorem step_of_opcode {op : Byte} (hop : memRead s.mem s.pc = op) {i : Instr}
    (hdec : decode op (memRead s.mem (s.pc + 1)) (memRead s.mem (s.pc + 2)) = .ok i) : step s = exec i s := by
  subst hop
  exact stepWith_of_decoded hrun hdec

end Running

theorem fetchDecode_extended (admitted : Bool → Byte → Bool) {s : State} (hlead : memRead s.mem s.pc = 0xCB) :
    fetchDecode admitted s = decodeOp admitted true (memRead s.mem (s.pc + 1)) (memRead s.mem (s.pc + 2)) 0 := by
  rw [fetchDecode, hlead]; rfl

/-- Settles O14: some row of the extended space matches every byte, and a withheld byte takes the fault that records it. -/
theorem everyPrefixedByteDecodes : Obligations.EveryPrefixedByteDecodes := by
  refine ⟨?decodes, ?withheld⟩
  case decodes => exact fun op b2 => exists_decodeOp_ok (prefixedRows_hit_every_byte op) rfl b2 0
  case withheld =>
    rintro admitted op s hrun hlead rfl hadm
    exact stepWith_of_unknown hrun ((fetchDecode_extended admitted hlead).trans (decodeOp_withheld hadm _ _))

/-- Settles O18: on a running core each clause is what `decode` makes of the opcode byte and the two bytes after it. -/
theorem immediatesFollowTheOpcode : Obligations.ImmediatesFollowTheOpcode := by
  refine ⟨fun s hrun => ?_, sext16_eq_ite⟩
  refine ⟨?add, ?adc, ?sub, ?sbc, ?and, ?xor, ?or, ?cp, ?addSp, ?jr, ?jrCc, ?jp, ?jpCc, ?pairs⟩
  case add | adc | sub | sbc | and | xor | or | cp | addSp | jr => exact fun hop => step_of_opcode hrun hop rfl
  case jrCc => exact fun _ hcc hop => step_of_opcode hrun hop (decode_jrCcE8 hcc ..)
  case jp => exact fun hop => step_of_opcode hrun hop (decode_jpA16 ..)
  case jpCc => exact fun _ hcc hop => step_of_opcode hrun hop (decode_jpCcA16 hcc ..)
  case pairs =>
    exact fun p =>
      ⟨fun hop => step_of_opcode hrun hop (decode_addHlRr p ..), fun hop => step_of_opcode hrun hop (decode_incRr p ..),
        fun hop => step_of_opcode hrun hop (decode_decRr p ..)⟩

end Sys2Proof.Machine
end

section
/-! The ALU primitives (40_alu_primitives.md) and the forms that run them on A, on a byte target and on a word target. -/

namespace Sys2Proof.Machine

open Sys2Proof.Claims

/-! ## Each primitive as result and flags

The zero flag and the result are the ones the rules state, not the intermediate sum or difference of the definition. -/

theorem aluAdd_eq (l r : Byte) (f : Flags) : aluAdd l r f =
    (l + r,
      { z := decide (l = 0 ∧ r = 0)
        n := false
        h := decide (l.toNat % 16 + r.toNat % 16 > 0xF)
        c := decide (l.toNat + r.toNat > 0xFF) }) := by
  rw [← aluAdd_fst l r f, ← aluAdd_z l r f]; rfl

/-- R123: the carry-in is the carry out of `add` itself. -/
theorem aluAddC_eq (l r : Byte) (f : Flags) : aluAddC l r f =
    (l + r + (if l.toNat + r.toNat > 0xFF then 1 else 0), (aluAdd l r f).2) := by
  simp only [aluAddC, aluAdd_eq, decide_eq_true_eq, add_ite, add_zero]

theorem aluSub_eq (l r : Byte) (f : Flags) : aluSub l r f =
    (l - r,
      { z := decide (l = r)
        n := true
        h := decide (l.toNat % 16 < r.toNat % 16)
        c := decide (l.toNat < r.toNat) }) := by
  rw [← aluSub_z l r f]; rfl

/-- R125: the borrow-in is the borrow of `sub` itself. -/
theorem aluSubC_eq (l r : Byte) (f : Flags) : aluSubC l r f =
    (l - r - (if l.toNat < r.toNat then 1 else 0), (aluSub l r f).2) := by
  simp only [aluSubC, aluSub_eq, decide_eq_true_eq, sub_ite, sub_zero]

theorem aluAddHl_eq (l r : Word) (f : Flags) : aluAddHl l r f =
    (l + r,
      { z := decide (l = 0 ∧ r = 0)
        n := false
        h := decide (l.toNat % 4096 + r.toNat % 4096 > 0xFFF)
        c := decide (l.toNat + r.toNat > 0xFFFF) }) := by
  rw [← aluAddHl_fst l r f, ← aluAddHl_z l r f]; rfl

/-- R144: adding one wraps to zero from 0xFF only. -/
theorem aluInc8_eq (v : Byte) (f : Flags) : aluInc8 v f =
    (v + 1, { z := decide (v = 0xFF), n := false, h := decide (v.toNat % 16 = 0xF), c := f.c }) := by
  have hzero : v + 1 = 0 ↔ v = 0xFF := by bv_omega
  simp only [aluInc8, hzero]

/-- R145: subtracting one reaches zero from 0x01 only. -/
theorem aluDec8_eq (v : Byte) (f : Flags) : aluDec8 v f =
    (v - 1, { z := decide (v = 0x01), n := true, h := decide (v.toNat % 16 = 0), c := f.c }) := by
  have hzero : v - 1 = 0 ↔ v = 0x01 := by bv_omega
  simp only [aluDec8, hzero]

/-- The two nibbles share no bit, so the OR of the shifted halves is their sum. -/
theorem aluSwapNibbles_toNat (v : Byte) (f : Flags) :
    (aluSwapNibbles v f).1.toNat = v.toNat % 16 * 16 + v.toNat / 16 := by
  have hv : v.toNat < 256 := v.isLt
  have hlow : v.toNat / 16 < 2 ^ 4 := by omega
  have hhigh : v.toNat * 16 % 256 = 2 ^ 4 * (v.toNat % 16) := by omega
  calc (aluSwapNibbles v f).1.toNat
      = v.toNat * 16 % 256 ||| v.toNat / 16 := by
        simp [aluSwapNibbles, Nat.shiftLeft_eq, Nat.shiftRight_eq_div_pow]
    _ = 2 ^ 4 * (v.toNat % 16) + v.toNat / 16 := by rw [hhigh, Nat.two_pow_add_eq_or_of_lt hlow]
    _ = v.toNat % 16 * 16 + v.toNat / 16 := by omega

/-- The exchange is zero of zero only, so Z can be read off the value. -/
theorem aluSwapNibbles_eq (v : Byte) (f : Flags) : aluSwapNibbles v f =
    (BitVec.ofNat 8 (v.toNat % 16 * 16 + v.toNat / 16), { z := decide (v = 0), n := false, h := false, c := false }) := by
  have hzero : (aluSwapNibbles v f).1 = 0 ↔ v = 0 := by
    have hbyte : (0 : Byte).toNat = 0 := rfl
    rw [← BitVec.toNat_inj, ← BitVec.toNat_inj, aluSwapNibbles_toNat, hbyte]
    omega
  rw [← aluSwapNibbles_toNat v f, BitVec.ofNat_toNat, BitVec.setWidth_eq, ← decide_eq_decide.mpr hzero]
  rfl

/-- R138: exchanging the nibbles twice restores the value, whatever the flags. -/
theorem aluSwapNibbles_involutive (v : Byte) (f g : Flags) : (aluSwapNibbles (aluSwapNibbles v f).1 g).1 = v := by
  have hv : v.toNat < 256 := v.isLt
  apply BitVec.eq_of_toNat_eq
  rw [aluSwapNibbles_toNat, aluSwapNibbles_toNat]
  omega

/-! ## The shared operations, from the result and the flags of their primitive -/

theorem aluOnA_of_op {op : Byte → Byte → Flags → Byte × Flags} {t : ByteTarget} {s : State} {res : Byte} {flags : Flags}
    (hop : op s.a (resolveByte t s).1 s.f = (res, flags)) :
    aluOnA op t s = { s with a := res, f := flags, pc := s.pc + BitVec.ofNat 16 (resolveByte t s).2 } := by
  rw [aluOnA_eq, hop]

theorem modifyByte_of_op {op : Byte → Flags → Byte × Flags} {t : ByteTarget} {n : Nat} {s : State} {res : Byte}
    {flags : Flags} (hop : op (resolveByte t s).1 s.f = (res, flags)) :
    modifyByte op t n s = { writeByte t res s with f := flags, pc := s.pc + BitVec.ofNat 16 n } := by
  rw [modifyByte_eq, hop]

/-! ## ALU operations on A (41_alu8.md R160 to R180) -/

theorem decode_addAR (r : Reg8) (b1 b2 : Byte) : decode (opReg 0x80 r) b1 b2 = .ok (.addAR r) := by cases r <;> rfl
theorem decode_adcAR (r : Reg8) (b1 b2 : Byte) : decode (opReg 0x88 r) b1 b2 = .ok (.adcAR r) := by cases r <;> rfl
theorem decode_subAR (r : Reg8) (b1 b2 : Byte) : decode (opReg 0x90 r) b1 b2 = .ok (.subAR r) := by cases r <;> rfl
theorem decode_sbcAR (r : Reg8) (b1 b2 : Byte) : decode (opReg 0x98 r) b1 b2 = .ok (.sbcAR r) := by cases r <;> rfl
theorem decode_andAR (r : Reg8) (b1 b2 : Byte) : decode (opReg 0xA0 r) b1 b2 = .ok (.andAR r) := by cases r <;> rfl
theorem decode_xorAR (r : Reg8) (b1 b2 : Byte) : decode (opReg 0xA8 r) b1 b2 = .ok (.xorAR r) := by cases r <;> rfl
theorem decode_orAR (r : Reg8) (b1 b2 : Byte) : decode (opReg 0xB0 r) b1 b2 = .ok (.orAR r) := by cases r <;> rfl

/-- The three forms run one operation on a byte target each, so one equation of that operation says what all of them do. -/
theorem aluForms_of_run {o : Byte} {viaReg : Reg8 → Instr} {viaMem : Instr} {viaImm : Byte → Instr}
    {post : State → Byte → Word → State} {run : ByteTarget → State → State}
    (hrun : ∀ t s, run t s = post s (resolveByte t s).1 (BitVec.ofNat 16 (resolveByte t s).2))
    (hreg : ∀ r b1 b2, decode (opReg (0x80 + 8 * o) r) b1 b2 = .ok (viaReg r))
    (hmemImm : ∀ b1 b2, decode (0x86 + 8 * o) b1 b2 = .ok viaMem ∧ decode (0xC6 + 8 * o) b1 b2 = .ok (viaImm b1))
    (hexec : ∀ s, (∀ r, exec (viaReg r) s = .next (run (.reg r) s)) ∧ exec viaMem s = .next (run .memHl s) ∧
      ∀ d8, exec (viaImm d8) s = .next (run (.imm d8) s)) :
    aluForms o viaReg viaMem viaImm post := by
  refine ⟨hreg, fun b1 b2 => (hmemImm b1 b2).1, fun d8 b2 => (hmemImm d8 b2).2, ?reg, ?mem, ?imm⟩
  case reg =>
    intro r s
    obtain ⟨hexecReg, -, -⟩ := hexec s
    exact (hexecReg r).trans (congrArg _ (hrun (.reg r) s))
  case mem =>
    intro s
    obtain ⟨-, hexecMem, -⟩ := hexec s
    exact hexecMem.trans (congrArg _ (hrun .memHl s))
  case imm =>
    intro d8 s
    obtain ⟨-, -, hexecImm⟩ := hexec s
    exact (hexecImm d8).trans (congrArg _ (hrun (.imm d8) s))

/-- Settles O28: the three forms run `aluOnA aluAdd`. -/
theorem addOnA : Obligations.AddOnA :=
  aluForms_of_run (fun _ _ => aluOnA_of_op (aluAdd_eq ..)) decode_addAR (fun _ _ => ⟨rfl, rfl⟩)
    (fun _ => ⟨fun _ => rfl, rfl, fun _ => rfl⟩)

/-- Settles O29: the three forms run `aluOnA aluAddC`, whose flags are those of `add`. -/
theorem adcOnA : Obligations.AdcOnA :=
  aluForms_of_run (fun _ _ => aluOnA_of_op (by rw [aluAddC_eq, aluAdd_eq])) decode_adcAR (fun _ _ => ⟨rfl, rfl⟩)
    (fun _ => ⟨fun _ => rfl, rfl, fun _ => rfl⟩)

/-- Settles O30: the three forms run `aluOnA aluSub`. -/
theorem subOnA : Obligations.SubOnA :=
  aluForms_of_run (fun _ _ => aluOnA_of_op (aluSub_eq ..)) decode_subAR (fun _ _ => ⟨rfl, rfl⟩)
    (fun _ => ⟨fun _ => rfl, rfl, fun _ => rfl⟩)

/-- Settles O31: the three forms run `aluOnA aluSubC`, whose flags are those of `sub`. -/
theorem sbcOnA : Obligations.SbcOnA :=
  aluForms_of_run (fun _ _ => aluOnA_of_op (by rw [aluSubC_eq, aluSub_eq])) decode_sbcAR (fun _ _ => ⟨rfl, rfl⟩)
    (fun _ => ⟨fun _ => rfl, rfl, fun _ => rfl⟩)

/-- Settles O32: the three forms run `aluOnA aluAnd`, whose definition is the rule. -/
theorem andOnA : Obligations.AndOnA :=
  aluForms_of_run (aluOnA_eq aluAnd) decode_andAR (fun _ _ => ⟨rfl, rfl⟩) (fun _ => ⟨fun _ => rfl, rfl, fun _ => rfl⟩)

/-- Settles O33: the three forms run `aluOnA aluXor`, whose definition is the rule. -/
theorem xorOnA : Obligations.XorOnA :=
  aluForms_of_run (aluOnA_eq aluXor) decode_xorAR (fun _ _ => ⟨rfl, rfl⟩) (fun _ => ⟨fun _ => rfl, rfl, fun _ => rfl⟩)

/-- Settles O34: the three forms run `aluOnA aluOr`, whose definition is the rule. -/
theorem orOnA : Obligations.OrOnA :=
  aluForms_of_run (aluOnA_eq aluOr) decode_orAR (fun _ _ => ⟨rfl, rfl⟩) (fun _ => ⟨fun _ => rfl, rfl, fun _ => rfl⟩)

/-! ## INC, DEC and SWAP of a byte target (41_alu8.md R184 to R187, 43_rotate_shift.md R236 and R237) -/

theorem decode_incR (r : Reg8) (b1 b2 : Byte) : decode (0x04 + 8 * (reg8Code r).setWidth 8) b1 b2 = .ok (.incR r) := by
  cases r <;> rfl
theorem decode_decR (r : Reg8) (b1 b2 : Byte) : decode (0x05 + 8 * (reg8Code r).setWidth 8) b1 b2 = .ok (.decR r) := by
  cases r <;> rfl
theorem decode_swapR (r : Reg8) (b2 : Byte) : decode 0xCB (opReg 0x30 r) b2 = .ok (.swapR r) := by cases r <;> rfl

/-- Settles O36: both forms run `modifyByte aluInc8`. -/
theorem incByte : Obligations.IncByte :=
  ⟨decode_incR, fun _ _ => rfl, fun _ _ => congrArg _ (modifyByte_of_op (aluInc8_eq ..)),
    fun _ => congrArg _ (modifyByte_of_op (aluInc8_eq ..))⟩

/-- Settles O37: both forms run `modifyByte aluDec8`. -/
theorem decByte : Obligations.DecByte :=
  ⟨decode_decR, fun _ _ => rfl, fun _ _ => congrArg _ (modifyByte_of_op (aluDec8_eq ..)),
    fun _ => congrArg _ (modifyByte_of_op (aluDec8_eq ..))⟩

/-- Settles O46: both forms run `modifyByte aluSwapNibbles`. -/
theorem swapForms : Obligations.SwapForms :=
  ⟨⟨decode_swapR, fun _ => rfl, fun _ _ => congrArg _ (modifyByte_of_op (aluSwapNibbles_eq ..)),
    fun _ => congrArg _ (modifyByte_of_op (aluSwapNibbles_eq ..))⟩, aluSwapNibbles_involutive⟩

/-! ## 16-bit forms (42_alu16.md R200, R202, R203) -/

/-- R200: both operands are read before HL is written, also when they are the same pair. -/
theorem exec_addHlRr (p : WordTarget) (s : State) : exec (.addHlRr p) s =
    .next { setHl (aluAddHl (getHl s) (resolveWord p s) s.f).1 s with
      f := (aluAddHl (getHl s) (resolveWord p s) s.f).2
      pc := s.pc + 1 } := rfl

/-- Settles O39: the result and the flags are those of `aluAddHl`. -/
theorem addHlPair : Obligations.AddHlPair :=
  ⟨decode_addHlRr, fun p s => by rw [exec_addHlRr, aluAddHl_eq]⟩

/-- Settles O41: a write of a word target keeps F, so only the pair and pc change. -/
theorem incDecPair : Obligations.IncDecPair :=
  ⟨fun p b1 b2 => ⟨decode_incRr p b1 b2, decode_decRr p b1 b2⟩, fun _ _ => rfl, fun _ _ => rfl⟩

end Sys2Proof.Machine
end

section
/-! The compare of A with a byte target, and CPL, CCF and SCF (41_alu8.md R181 to R183, R188 to R190). -/

namespace Sys2Proof.Machine

open Sys2Proof.Claims

/-! ## CP: the flags of `sub` without its result -/

theorem compareOnA_of_sub {t : ByteTarget} {s : State} {res : Byte} {flags : Flags}
    (hsub : aluSub s.a (resolveByte t s).1 s.f = (res, flags)) :
    compareOnA t s = { s with f := flags, pc := s.pc + BitVec.ofNat 16 (resolveByte t s).2 } := by
  rw [compareOnA_eq, hsub]

theorem decode_cpAR (r : Reg8) (b1 b2 : Byte) : decode (opReg 0xB8 r) b1 b2 = .ok (.cpAR r) := by cases r <;> rfl

/-- Settles O35: the three forms run `compareOnA`, whose flags are those of `sub`. -/
theorem cpOnA : Obligations.CpOnA :=
  aluForms_of_run (fun _ _ => compareOnA_of_sub (aluSub_eq ..)) decode_cpAR (fun _ _ => ⟨rfl, rfl⟩)
    (fun _ => ⟨fun _ => rfl, rfl, fun _ => rfl⟩)

/-! ## CPL, CCF and SCF -/

/-- R130: the complement is the distance to 0xFF, so it is zero of 0xFF only. -/
theorem aluComplement_eq (v : Byte) (f : Flags) : aluComplement v f =
    (0xFF - v, { z := decide (v = 0xFF), n := true, h := true, c := f.c }) := by
  have hres : ~~~v = 0xFF - v := (BitVec.allOnes_sub_eq_not v).symm
  have hzero : 0xFF - v = 0 ↔ v = 0xFF := by rw [sub_eq_zero, eq_comm]
  simp only [aluComplement, hres, hzero]

/-- Settles O38: CPL runs `modifyByte aluComplement` on A; CCF and SCF write F and pc as their definitions say. -/
theorem cplCcfScf : Obligations.CplCcfScf := by
  refine ⟨?decodes, ?cpl, ?ccf, ?scf⟩
  case decodes => exact fun _ _ => ⟨rfl, rfl, rfl⟩
  case cpl => exact fun _ => congrArg _ (modifyByte_of_op (aluComplement_eq ..))
  case ccf | scf => exact fun _ => rfl

end Sys2Proof.Machine
end

section
/-! ADD SP,e8 (42_alu16.md R201): the 16-bit add of the sign-extended displacement. -/

namespace Sys2Proof.Machine

/-- R9: the sign extension adds 0xFF00 to the byte when its sign bit is set. -/
theorem sext16_eq_add (e8 : Byte) : sext16 e8 = e8.setWidth 16 + if e8.getLsbD 7 then 0xFF00 else 0 := by
  rw [sext16_eq_ite, add_ite, add_zero]

/-- R9: a negative displacement enters an unsigned 16-bit add as its signed value plus 65536. -/
theorem sext16_toNat_of_negative {e8 : Byte} (hneg : e8.getLsbD 7 = true) :
    ((sext16 e8).toNat : Int) = e8.toInt + 0x10000 := by
  have hsigned : (sext16 e8).toInt = e8.toInt := BitVec.toInt_signExtend_of_le (by decide)
  have hmsb : (sext16 e8).msb = true := BitVec.msb_signExtend.trans hneg
  rw [BitVec.toInt_eq_msb_cond, if_pos hmsb] at hsigned
  omega

/-- R201: the flags are those of the 16-bit add, with Z cleared over them. -/
theorem exec_addSpE8 (e8 : Byte) (s : State) : exec (.addSpE8 e8) s =
    .next { s with
      sp := (aluAddHl s.sp (sext16 e8) s.f).1
      f := { (aluAddHl s.sp (sext16 e8) s.f).2 with z := false }
      pc := s.pc + 2 } := rfl

/-- R201: for a negative displacement the add carries out of bit 15 exactly when the signed sum is not below zero. -/
theorem aluAddHl_sext16_carry_iff {e8 : Byte} (hneg : e8.getLsbD 7 = true) (sp : Word) (f : Flags) :
    (aluAddHl sp (sext16 e8) f).2.c = true ↔ 0 ≤ (sp.toNat : Int) + e8.toInt := by
  have hext := sext16_toNat_of_negative hneg
  rw [aluAddHl_eq, decide_eq_true_eq]
  omega

/-- Settles O40: result and flags are those of `aluAddHl` on the sign-extended displacement, whose carry is the lemma above. -/
theorem addSpDisplacement : Obligations.AddSpDisplacement := by
  refine ⟨?decodes, ?next, ?carry⟩
  case decodes => exact fun _ _ => rfl
  case next =>
    intro e8 s
    rw [exec_addSpE8, aluAddHl_eq, sext16_eq_add]
  case carry =>
    intro e8 s t hneg hexec
    obtain rfl := Host.Outcome.next.inj ((exec_addSpE8 e8 s).symm.trans hexec)
    exact aluAddHl_sext16_carry_iff hneg s.sp s.f

end Sys2Proof.Machine
end

section
/-! Rotates and shifts (43_rotate_shift.md R220 to R235, R238, R239): the four rotates of A, and the rotates and shifts of a
byte register or of the byte at HL. -/

namespace Sys2Proof.Machine

open Sys2Proof.Claims

/-! ## Each primitive as result and flags (40_alu_primitives.md R131 to R137)

A shift reaches zero as its value says, so Z can be read off the value and not only off the result. -/

/-- R131: the two shifted parts are the rotation by one, which keeps Z. -/
theorem aluRotateLeft_eq (v : Byte) (f : Flags) : aluRotateLeft v f =
    (v.rotateLeft 1, { z := f.z, n := false, h := false, c := v.getLsbD 7 }) := rfl

/-- R132: the old carry joins the bit that comes round, it does not replace it. -/
theorem aluRotateLeftThroughCarry_eq (v : Byte) (f : Flags) : aluRotateLeftThroughCarry v f =
    (v.rotateLeft 1 ||| (if f.c then 0x01 else 0), { z := f.z, n := false, h := false, c := v.getLsbD 7 }) := by
  rw [aluRotateLeftThroughCarry, aluRotateLeft_eq]

/-- R133: the two shifted parts are the rotation by one, which clears Z. -/
theorem aluRotateRight_eq (v : Byte) (f : Flags) : aluRotateRight v f =
    (v.rotateRight 1, { z := false, n := false, h := false, c := v.getLsbD 0 }) := rfl

/-- R134: the old carry joins the bit that comes round, it does not replace it. -/
theorem aluRotateRightThroughCarry_eq (v : Byte) (f : Flags) : aluRotateRightThroughCarry v f =
    (v.rotateRight 1 ||| (if f.c then 0x80 else 0), { z := false, n := false, h := false, c := v.getLsbD 0 }) := by
  rw [aluRotateRightThroughCarry, aluRotateRight_eq]

/-- R135: doubling modulo 256 loses bit 7, so the result is zero when the low seven bits are. -/
theorem aluShiftLeft_eq (v : Byte) (f : Flags) : aluShiftLeft v f =
    (BitVec.ofNat 8 (v.toNat * 2), { z := decide (v.toNat % 128 = 0), n := false, h := false, c := v.getLsbD 7 }) := by
  have hres : v <<< 1 = BitVec.ofNat 8 (v.toNat * 2) := by bv_omega
  have hzero : BitVec.ofNat 8 (v.toNat * 2) = 0 ↔ v.toNat % 128 = 0 := by bv_omega
  simp only [aluShiftLeft, hres, hzero]

/-- R136: halving reaches zero from 0 and 1 only. -/
theorem aluShiftRightLogical_eq (v : Byte) (f : Flags) : aluShiftRightLogical v f =
    (BitVec.ofNat 8 (v.toNat / 2), { z := decide (v.toNat < 2), n := false, h := false, c := v.getLsbD 0 }) := by
  have hres : v >>> 1 = BitVec.ofNat 8 (v.toNat / 2) := by bv_omega
  have hzero : BitVec.ofNat 8 (v.toNat / 2) = 0 ↔ v.toNat < 2 := by bv_omega
  simp only [aluShiftRightLogical, hres, hzero]

/-- R137: bit 7 stays, and every other bit of the result is the next higher bit of the value. -/
theorem ushiftRight_or_signBit (v : Byte) : v >>> 1 ||| v &&& 0x80 = v.sshiftRight 1 := by
  apply BitVec.eq_of_getElem_eq
  intro i hi
  have hmask : (0x80#8)[i] = decide (i = 7) := by revert i; decide
  obtain rfl | hlow : i = 7 ∨ i < 7 := by omega
  · simp [BitVec.getElem_sshiftRight, BitVec.msb_eq_getLsbD_last]
  · have hnext : 1 + i < 8 := by omega
    simp [BitVec.getElem_sshiftRight, hmask, hlow.ne, hnext]

/-- The arithmetic shift is the signed value halved, rounding down, which is zero of 0 and 1 only. -/
theorem sshiftRight_one_eq_zero_iff (v : Byte) : v.sshiftRight 1 = 0 ↔ v.toNat < 2 := by
  have hhalf : (v.sshiftRight 1).toInt = v.toInt / 2 := by
    rw [BitVec.toInt_sshiftRight, Int.shiftRight_eq_div_pow]; rfl
  have hsigned := BitVec.toInt_eq_toNat_cond v
  have hv : v.toNat < 256 := v.isLt
  rw [← BitVec.toInt_inj, hhalf, show (0 : Byte).toInt = 0 from rfl]
  split at hsigned <;> omega

/-- R137: the arithmetic shift right by one. -/
theorem aluShiftRightArithmetic_eq (v : Byte) (f : Flags) : aluShiftRightArithmetic v f =
    (v.sshiftRight 1, { z := decide (v.toNat < 2), n := false, h := false, c := v.getLsbD 0 }) := by
  simp only [aluShiftRightArithmetic, ushiftRight_or_signBit, sshiftRight_one_eq_zero_iff]

/-! ## The prefixed forms (R224 to R235, R238, R239) -/

theorem decode_rlcR (r : Reg8) (b2 : Byte) : decode 0xCB (opReg 0x00 r) b2 = .ok (.rlcR r) := by cases r <;> rfl
theorem decode_rrcR (r : Reg8) (b2 : Byte) : decode 0xCB (opReg 0x08 r) b2 = .ok (.rrcR r) := by cases r <;> rfl
theorem decode_rlR (r : Reg8) (b2 : Byte) : decode 0xCB (opReg 0x10 r) b2 = .ok (.rlR r) := by cases r <;> rfl
theorem decode_rrR (r : Reg8) (b2 : Byte) : decode 0xCB (opReg 0x18 r) b2 = .ok (.rrR r) := by cases r <;> rfl
theorem decode_slaR (r : Reg8) (b2 : Byte) : decode 0xCB (opReg 0x20 r) b2 = .ok (.slaR r) := by cases r <;> rfl
theorem decode_sraR (r : Reg8) (b2 : Byte) : decode 0xCB (opReg 0x28 r) b2 = .ok (.sraR r) := by cases r <;> rfl
theorem decode_srlR (r : Reg8) (b2 : Byte) : decode 0xCB (opReg 0x38 r) b2 = .ok (.srlR r) := by cases r <;> rfl

/-- Both forms run one read-modify-write on a byte target, so one equation of it says what the two of them do. -/
theorem cbForms_of_modifyByte {base : Byte} {viaReg : Reg8 → Instr} {viaMem : Instr} {post : ByteTarget → State → State}
    {op : Byte → Flags → Byte × Flags} (hpost : ∀ t s, modifyByte op t 2 s = post t s)
    (hreg : ∀ r b2, decode 0xCB (opReg base r) b2 = .ok (viaReg r))
    (hmem : ∀ b2, decode 0xCB (base + 6) b2 = .ok viaMem)
    (hexec : ∀ s, (∀ r, exec (viaReg r) s = .next (modifyByte op (.reg r) 2 s)) ∧
      exec viaMem s = .next (modifyByte op .memHl 2 s)) :
    cbForms base viaReg viaMem post := by
  refine ⟨hreg, hmem, ?reg, ?mem⟩
  case reg =>
    intro r s
    obtain ⟨hexecReg, -⟩ := hexec s
    rw [hexecReg, hpost]
  case mem =>
    intro s
    obtain ⟨-, hexecMem⟩ := hexec s
    rw [hexecMem, hpost]

/-- Settles O45: the forms run `modifyByte` on the three shifts, each with its result and Z by the lemmas above. -/
theorem shiftForms : Obligations.ShiftForms := by
  refine ⟨?sla, ?sra, ?srl⟩
  case sla =>
    exact cbForms_of_modifyByte (fun _ _ => modifyByte_of_op (aluShiftLeft_eq ..)) decode_slaR (fun _ => rfl)
      (fun _ => ⟨fun _ => rfl, rfl⟩)
  case sra =>
    exact cbForms_of_modifyByte (fun _ _ => modifyByte_of_op (aluShiftRightArithmetic_eq ..)) decode_sraR (fun _ => rfl)
      (fun _ => ⟨fun _ => rfl, rfl⟩)
  case srl =>
    exact cbForms_of_modifyByte (fun _ _ => modifyByte_of_op (aluShiftRightLogical_eq ..)) decode_srlR (fun _ => rfl)
      (fun _ => ⟨fun _ => rfl, rfl⟩)

/-- Settles O43: the forms run `modifyByte` on the left rotates, which keep Z. -/
theorem rotateLeftForms : Obligations.RotateLeftForms := by
  refine ⟨?rlc, ?rl⟩
  case rlc =>
    exact cbForms_of_modifyByte (fun _ _ => modifyByte_of_op (aluRotateLeft_eq ..)) decode_rlcR (fun _ => rfl)
      (fun _ => ⟨fun _ => rfl, rfl⟩)
  case rl =>
    exact cbForms_of_modifyByte (fun _ _ => modifyByte_of_op (aluRotateLeftThroughCarry_eq ..)) decode_rlR (fun _ => rfl)
      (fun _ => ⟨fun _ => rfl, rfl⟩)

/-- Settles O44: the forms run `modifyByte` on the right rotates, which clear Z. -/
theorem rotateRightForms : Obligations.RotateRightForms := by
  refine ⟨?rrc, ?rr⟩
  case rrc =>
    exact cbForms_of_modifyByte (fun _ _ => modifyByte_of_op (aluRotateRight_eq ..)) decode_rrcR (fun _ => rfl)
      (fun _ => ⟨fun _ => rfl, rfl⟩)
  case rr =>
    exact cbForms_of_modifyByte (fun _ _ => modifyByte_of_op (aluRotateRightThroughCarry_eq ..)) decode_rrR (fun _ => rfl)
      (fun _ => ⟨fun _ => rfl, rfl⟩)

/-! ## The rotates of A (R220 to R223) -/

/-- Settles O42: each form runs `modifyByte` on A with its rotate. -/
theorem rotatesOfA : Obligations.RotatesOfA := by
  refine ⟨?decodes, ?rlca, ?rrca, ?rla, ?rra⟩
  case decodes => exact fun _ _ => ⟨rfl, rfl, rfl, rfl⟩
  case rlca => exact fun _ => congrArg Host.Outcome.next (modifyByte_of_op (aluRotateLeft_eq ..))
  case rrca => exact fun _ => congrArg Host.Outcome.next (modifyByte_of_op (aluRotateRight_eq ..))
  case rla => exact fun _ => congrArg Host.Outcome.next (modifyByte_of_op (aluRotateLeftThroughCarry_eq ..))
  case rra => exact fun _ => congrArg Host.Outcome.next (modifyByte_of_op (aluRotateRightThroughCarry_eq ..))

end Sys2Proof.Machine
end

section
/-! BIT, RES and SET of a byte register and of the byte at HL (44_bit.md R250 to R255). -/

namespace Sys2Proof.Machine

open Sys2Proof.Claims

/-! ## The primitives on an index in range (40_alu_primitives.md R140 to R142) -/

section InRange

variable {b : Byte} (hb : b.toNat ≤ 7)
include hb

theorem aluBitCheck_of_le (v : Byte) (f : Flags) :
    aluBitCheck v b f = { z := !v.getLsbD b.toNat, n := false, h := true, c := f.c } := by
  rw [aluBitCheck, buildBitIndex_of_le hb]

theorem aluBitSet_of_le (v : Byte) : aluBitSet v b = v ||| BitVec.twoPow 8 b.toNat := by
  rw [aluBitSet, buildBitIndex_of_le hb]; rfl

theorem aluBitReset_of_le (v : Byte) : aluBitReset v b = v &&& ~~~BitVec.twoPow 8 b.toNat := by
  rw [aluBitReset, buildBitIndex_of_le hb]; rfl

/-- The mask both primitives use has bit `b` and no other. -/
theorem twoPow_bitIndex_getLsbD (j : Nat) : (BitVec.twoPow 8 b.toNat).getLsbD j = decide (j = b.toNat) := by
  have hlt : b.toNat < 8 := by omega
  simp [BitVec.getLsbD_twoPow, hlt, eq_comm]

theorem aluBitSet_getLsbD (v : Byte) (j : Nat) :
    (aluBitSet v b).getLsbD j = (v.getLsbD j || decide (j = b.toNat)) := by
  rw [aluBitSet_of_le hb, BitVec.getLsbD_or, twoPow_bitIndex_getLsbD hb]

theorem aluBitReset_getLsbD (v : Byte) {j : Nat} (hj : j < 8) :
    (aluBitReset v b).getLsbD j = (v.getLsbD j && decide (j ≠ b.toNat)) := by
  rw [aluBitReset_of_le hb, BitVec.getLsbD_and, BitVec.getLsbD_not, twoPow_bitIndex_getLsbD hb]
  simp [hj]

/-! ## The shared bit test -/

theorem testBit_of_le (t : ByteTarget) (s : State) : testBit b t s =
    { s with f := { z := !(resolveByte t s).1.getLsbD b.toNat, n := false, h := true, c := s.f.c }, pc := s.pc + 2 } := by
  rw [testBit_eq, aluBitCheck_of_le hb]

/-! ## The opcode bytes 01 bbb xxx, 10 bbb xxx and 11 bbb xxx (30_encoding.md R89, R93) -/

/-- There are eight indices in range, so a fact about each opcode byte is a case split. -/
theorem exists_fin_of_bitIndex : ∃ i : Fin 8, b = BitVec.ofNat 8 i :=
  ⟨⟨b.toNat, by omega⟩, (BitVec.ofNat_toNat 8 b).symm⟩

theorem decode_bitBR (r : Reg8) (b2 : Byte) : decode 0xCB (opReg (0x40 + 8 * b) r) b2 = .ok (.bitBR b r) := by
  obtain ⟨i, rfl⟩ := exists_fin_of_bitIndex hb
  fin_cases i <;> cases r <;> rfl

theorem decode_resBR (r : Reg8) (b2 : Byte) : decode 0xCB (opReg (0x80 + 8 * b) r) b2 = .ok (.resBR b r) := by
  obtain ⟨i, rfl⟩ := exists_fin_of_bitIndex hb
  fin_cases i <;> cases r <;> rfl

theorem decode_setBR (r : Reg8) (b2 : Byte) : decode 0xCB (opReg (0xC0 + 8 * b) r) b2 = .ok (.setBR b r) := by
  obtain ⟨i, rfl⟩ := exists_fin_of_bitIndex hb
  fin_cases i <;> cases r <;> rfl

/-- The three forms on `(HL)`, whose field `xxx` is 110. -/
theorem decode_bitMemForms (b2 : Byte) : decode 0xCB (0x46 + 8 * b) b2 = .ok (.bitBMem b) ∧
    decode 0xCB (0x86 + 8 * b) b2 = .ok (.resBMem b) ∧ decode 0xCB (0xC6 + 8 * b) b2 = .ok (.setBMem b) := by
  obtain ⟨i, rfl⟩ := exists_fin_of_bitIndex hb
  fin_cases i <;> exact ⟨rfl, rfl, rfl⟩

end InRange

/-- Settles O47: both forms run `testBit` on their target. -/
theorem bitTestForms : Obligations.BitTestForms := by
  intro b hb
  refine ⟨decode_bitBR hb, ?decodeMem, ?reg, ?mem⟩
  case decodeMem =>
    intro b2
    obtain ⟨hbit, -, -⟩ := decode_bitMemForms hb b2
    exact hbit
  case reg => exact fun r s => congrArg Host.Outcome.next (testBit_of_le hb (.reg r) s)
  case mem => exact fun s => congrArg Host.Outcome.next (testBit_of_le hb .memHl s)

/-- Settles O48: the forms run `changeBit`, which writes no flag, on the two bit primitives at index `b`. -/
theorem bitChangeForms : Obligations.BitChangeForms := by
  intro b hb
  refine ⟨fun r b2 => ⟨decode_resBR hb r b2, decode_setBR hb r b2⟩, ?decodeMem, (aluBitReset · b), (aluBitSet · b), ?bits,
    ?resReg, ?resMem, ?setReg, ?setMem⟩
  case decodeMem =>
    intro b2
    obtain ⟨-, hres, hset⟩ := decode_bitMemForms hb b2
    exact ⟨hres, hset⟩
  case bits => exact fun v j hj => ⟨aluBitReset_getLsbD hb v hj, aluBitSet_getLsbD hb v j⟩
  case resReg => exact fun r s => congrArg Host.Outcome.next (changeBit_eq aluBitReset b (.reg r) s)
  case resMem => exact fun s => congrArg Host.Outcome.next (changeBit_eq aluBitReset b .memHl s)
  case setReg => exact fun r s => congrArg Host.Outcome.next (changeBit_eq aluBitSet b (.reg r) s)
  case setMem => exact fun s => congrArg Host.Outcome.next (changeBit_eq aluBitSet b .memHl s)

end Sys2Proof.Machine
end

section
/-! The jumps (45_jump.md R271 to R277): each writes pc and nothing else, with the target that the jump evaluator gives. -/

namespace Sys2Proof.Machine

/-! ## Absolute jumps (R271, R273, R274, R277) -/

/-- R277: the pair HL is the address, H its high byte. -/
theorem getHl_eq_ofNat (s : State) : getHl s = BitVec.ofNat 16 (s.h.toNat * 256 + s.l.toNat) :=
  wordOfBytes_eq_ofNat s.h s.l

/-- Settles O51: `jumpTarget` is the stated choice of pc; a pair of bytes, in the encoding or in HL, is the address hi * 256 + lo. -/
theorem absoluteJumps : Obligations.AbsoluteJumps := by
  refine ⟨decode_jpA16, fun _ lo hi hcc => decode_jpCcA16 hcc lo hi, ?decodeHl, ?jp, ?jpCc, ?jpHl⟩
  case decodeHl => exact fun _ _ => rfl
  case jp => exact fun _ _ => rfl
  case jpCc => exact fun _ _ _ => rfl
  case jpHl => exact fun s => congrArg (fun pc => Host.Outcome.next (setPc pc s)) (getHl_eq_ofNat s)

/-! ## Relative jumps (R272, R275, R276) -/

/-- R272: adding the sign-extended displacement to the next instruction's address is the signed sum modulo 65536. -/
theorem pcAfter_two_add_sext16 (e8 : Byte) (s : State) :
    pcAfter 2 s + sext16 e8 = BitVec.ofInt 16 (s.pc.toNat + 2 + e8.toInt) := by
  have hpc : BitVec.ofInt 16 s.pc.toNat = s.pc := by rw [BitVec.ofInt_natCast, BitVec.ofNat_toNat, BitVec.setWidth_eq]
  rw [BitVec.ofInt_add, BitVec.ofInt_add, hpc]
  rfl

theorem jumpRelativeTarget_eq (t : Cond) (e8 : Byte) (s : State) : jumpRelativeTarget t e8 s =
    if evaluateCondition s.f t then BitVec.ofInt 16 (s.pc.toNat + 2 + e8.toInt) else s.pc + 2 := by
  rw [jumpRelativeTarget, pcAfter_two_add_sext16]
  rfl

/-- R272: a relative jump under any code writes pc and nothing else. JR e8 is the case of `Always`. -/
theorem exec_jrCcE8 (cc : Cond) (e8 : Byte) (s : State) : exec (.jrCcE8 cc e8) s =
    .next { s with pc := if evaluateCondition s.f cc then BitVec.ofInt 16 (s.pc.toNat + 2 + e8.toInt) else s.pc + 2 } :=
  congrArg (fun pc => Host.Outcome.next (setPc pc s)) (jumpRelativeTarget_eq cc e8 s)

/-- Settles O52: JR e8 is JR under `Always`, which is taken; the target of a taken jump is the signed sum by the lemmas above. -/
theorem relativeJumps : Obligations.RelativeJumps := by
  refine ⟨?decodeJr, fun _ e8 b2 hcc => decode_jrCcE8 hcc e8 b2, ?jr, exec_jrCcE8⟩
  case decodeJr => exact fun _ _ => rfl
  case jr => exact fun e8 s => exec_jrCcE8 .always e8 s

end Sys2Proof.Machine
end

section
/-! The one exception (60_exceptions.md): which byte a decode failure reports, and what a step does with it. -/

namespace Sys2Proof

open Sys2Proof.Machine Sys2Proof.Claims

/-- A byte that no row of its space matches does not decode, whatever is admitted and whatever follows it (R82). -/
theorem decodeOp_of_no_hit {prefixed : Bool} {op : Byte} (hmiss : ∀ row ∈ rowsOf prefixed, row.hits op = false)
    (admitted : Bool → Byte → Bool) (imm0 imm1 : Byte) :
    decodeOp admitted prefixed op imm0 imm1 = .error ⟨prefixed, op⟩ := by
  have hnone : (rowsOf prefixed).findSome? (fun row => row.read op imm0 imm1) = none :=
    List.findSome?_eq_none_iff.mpr fun row hrow =>
      Option.not_isSome_iff_eq_none.mp (Bool.eq_false_iff.mp ((read_isSome_eq_hits hrow op imm0 imm1).trans (hmiss row hrow)))
  simp only [decodeOp, hnone]

/-- R92: no unprefixed row matches a listed byte. -/
theorem unknownBytes_hit_no_row {op : Byte} (hop : op ∈ unknownBytes) : ∀ row ∈ rowsOf false, row.hits op = false := by
  have hall : ∀ op ∈ unknownBytes, ∀ row ∈ rowsOf false, row.hits op = false := by decide
  exact hall op hop

theorem prefixByte_not_mem_unknownBytes : prefixByte ∉ unknownBytes := by decide

end Sys2Proof

namespace Sys2Proof.Machine

open Sys2Proof.Claims

theorem fetchDecode_plain (admitted : Bool → Byte → Bool) {s : State} (hlead : memRead s.mem s.pc ≠ 0xCB) :
    fetchDecode admitted s =
      decodeOp admitted false (memRead s.mem s.pc) (memRead s.mem (s.pc + 1)) (memRead s.mem (s.pc + 2)) :=
  if_neg hlead

/-- The failing byte is the one after the prefix byte when there is one, and the first byte otherwise (R300). -/
theorem fetchDecode_error {admitted : Bool → Byte → Bool} {s : State} {u : Unknown} (h : fetchDecode admitted s = .error u) :
    (memRead s.mem s.pc = 0xCB ∧ u = ⟨true, memRead s.mem (s.pc + 1)⟩) ∨
    (memRead s.mem s.pc ≠ 0xCB ∧ u = ⟨false, memRead s.mem s.pc⟩) := by
  by_cases hlead : memRead s.mem s.pc = 0xCB
  · rw [fetchDecode_extended admitted hlead] at h
    exact .inl ⟨hlead, decodeOp_error h⟩
  · rw [fetchDecode_plain admitted hlead] at h
    exact .inr ⟨hlead, decodeOp_error h⟩

/-- A listed byte at pc fails to decode in every core (R92). -/
theorem fetchDecode_of_unknownByte (admitted : Bool → Byte → Bool) {s : State}
    (hmem : memRead s.mem s.pc ∈ unknownBytes) : fetchDecode admitted s = .error ⟨false, memRead s.mem s.pc⟩ := by
  have hlead : memRead s.mem s.pc ≠ prefixByte := ne_of_mem_of_not_mem hmem prefixByte_not_mem_unknownBytes
  rw [fetchDecode_plain admitted hlead, decodeOp_of_no_hit (unknownBytes_hit_no_row hmem)]

/-- Settles O19: a failed fetch takes the fault, which writes `status` alone; the two kinds of failure are `fetchDecode_error`. -/
theorem unknownInstructionFaults : Obligations.UnknownInstructionFaults := by
  refine ⟨fun admitted s u hrun hfetch => ⟨stepWith_of_unknown hrun hfetch, ?recorded⟩, ?listed⟩
  case recorded =>
    obtain ⟨hlead, rfl⟩ | ⟨-, rfl⟩ := fetchDecode_error hfetch
    · exact ⟨fun _ => ⟨hlead, rfl⟩, nofun⟩
    · exact ⟨nofun, fun _ => rfl⟩
  case listed => exact fun s hrun hmem => stepWith_of_unknown hrun (fetchDecode_of_unknownByte Config.admitted hmem)

theorem stepWith_of_faulted (admitted : Bool → Byte → Bool) {s : State} {prefixed : Bool} {op : Byte}
    (hfault : s.status = .fault prefixed op) : stepWith admitted s = .next s := by
  simp only [stepWith, hfault, stayFaulted]

/-- Settles O20: of the cases of a step, a faulted core takes the one that answers its own state. -/
theorem faultedCoreStays : Obligations.FaultedCoreStays :=
  fun admitted _ _ _ hfault => stepWith_of_faulted admitted hfault

end Sys2Proof.Machine
end

section
/-! The decoder and the encoder are inverse to each other (30_encoding.md sections 1 to 3), and which bytes decode at all. -/

namespace Sys2Proof

open Sys2Proof.Machine Sys2Proof.Claims

/-! ## From an instruction to its bytes and back (R80, R84 to R90) -/

theorem encode_of_wellFormed {i : Instr} (hwf : i.wellFormed = true) : encode i = encodeWords i := if_pos hwf

/-- R84, for every instruction at once. -/
theorem encodedLength (i : Instr) : Laws.EncodedLength.Statement i := by
  cases i <;> exact ⟨rfl, Nat.le_of_ble_eq_true rfl, Nat.le_of_ble_eq_true rfl⟩

/-- The bytes `b 0`, `b 1`, … begin with `bytes`. -/
def BeginsWith (b : Nat → Byte) (bytes : List Byte) : Prop := ∀ k, k < bytes.length → b k = bytes.getD k 0

section Reading

variable {b : Nat → Byte} {i : Instr} {x y z : Byte}

theorem decode_of_one_byte (hb : BeginsWith b [x]) (hdec : ∀ b1 b2, decode x b1 b2 = .ok i) :
    decode (b 0) (b 1) (b 2) = .ok i := by
  rw [hb 0 Nat.one_pos]; exact hdec _ _

theorem decode_of_two_bytes (hb : BeginsWith b [x, y]) (hdec : ∀ b2, decode x y b2 = .ok i) :
    decode (b 0) (b 1) (b 2) = .ok i := by
  rw [hb 0 Nat.two_pos, hb 1 Nat.one_lt_two]; exact hdec _

theorem decode_of_three_bytes (hb : BeginsWith b [x, y, z]) (hdec : decode x y z = .ok i) :
    decode (b 0) (b 1) (b 2) = .ok i := by
  rw [hb 0 (Nat.succ_pos _), hb 1 (Nat.lt_add_of_pos_left Nat.two_pos), hb 2 (Nat.lt_succ_self _)]; exact hdec

end Reading

/-- A byte that satisfies `bitIndexOk` is one of the eight values of a three-bit field (R89). -/
theorem exists_bitIndexCode {b : Byte} (hb : bitIndexOk b = true) : ∃ c : Fin 8, b = BitVec.ofNat 8 c :=
  exists_fin_of_bitIndex (of_decide_eq_true hb)

/-- Bytes that begin with the encoding of a well-formed instruction decode to it, whatever follows. -/
theorem decode_of_encodeWords {i : Instr} (hwf : i.wellFormed = true) {b : Nat → Byte} (hb : BeginsWith b (encodeWords i)) :
    decode (b 0) (b 1) (b 2) = .ok i := by
  cases i with
  | addAMem | adcAMem | subAMem | sbcAMem | andAMem | xorAMem | orAMem | cpAMem | incMem | decMem | cpl | ccf | scf
  | rlca | rrca | rla | rra | jpHl =>
    exact decode_of_one_byte hb fun _ _ => rfl
  | addAR r | adcAR r | subAR r | sbcAR r | andAR r | xorAR r | orAR r | cpAR r | incR r | decR r =>
    exact decode_of_one_byte hb fun _ _ => by cases r <;> rfl
  | addHlRr p | incRr p | decRr p => exact decode_of_one_byte hb fun _ _ => by cases p <;> rfl
  | addAD8 | adcAD8 | subAD8 | sbcAD8 | andAD8 | xorAD8 | orAD8 | cpAD8 | addSpE8 | jrE8
  | rlcMem | rrcMem | rlMem | rrMem | slaMem | sraMem | swapMem | srlMem =>
    exact decode_of_two_bytes hb fun _ => rfl
  | rlcR r | rrcR r | rlR r | rrR r | slaR r | sraR r | swapR r | srlR r =>
    exact decode_of_two_bytes hb fun _ => by cases r <;> rfl
  | bitBMem n | resBMem n | setBMem n =>
    obtain ⟨c, rfl⟩ := exists_bitIndexCode hwf
    exact decode_of_two_bytes hb fun _ => by fin_cases c <;> rfl
  | bitBR n r | resBR n r | setBR n r =>
    obtain ⟨c, rfl⟩ := exists_bitIndexCode hwf
    exact decode_of_two_bytes hb fun _ => by fin_cases c <;> cases r <;> rfl
  | jrCcE8 cc e8 =>
    cases cc with
    | always => contradiction
    | notZero | zero | notCarry | carry => exact decode_of_two_bytes hb fun _ => rfl
  | jpA16 a16 => exact decode_of_three_bytes hb (congrArg (fun a => Except.ok (Instr.jpA16 a)) (wordOfBytes_hi_lo a16))
  | jpCcA16 cc a16 =>
    cases cc with
    | always => contradiction
    | notZero | zero | notCarry | carry =>
      exact decode_of_three_bytes hb (congrArg (fun a => Except.ok (Instr.jpCcA16 _ a)) (wordOfBytes_hi_lo a16))

theorem beginsWith_append (bytes rest : List Byte) : BeginsWith ((bytes ++ rest).getD · 0) bytes :=
  fun _ hk => List.getD_append _ _ _ _ hk

/-- Settles O10: the bytes begin with the encoding, so they decode to the instruction, and its length is that of the encoding. -/
theorem decodeOfEncode : Obligations.DecodeOfEncode := by
  intro i rest hwf
  rw [encode_of_wellFormed hwf]
  have hdec := decode_of_encodeWords hwf (beginsWith_append (encodeWords i) rest)
  obtain ⟨hlen, hpos, -⟩ := encodedLength i
  cases hbytes : encodeWords i with
  | nil => rw [hbytes] at hlen; exact absurd hlen (Nat.ne_of_lt hpos)
  | cons b0 tail =>
    rw [hbytes] at hdec hlen
    have hdec : decode b0 ((tail ++ rest).getD 0 0) ((tail ++ rest).getD 1 0) = .ok i := hdec
    have htail : i.length = tail.length + 1 := hlen.symm
    simp only [List.cons_append, decodeBytes, hdec]
    simp [htail]

/-! ## From bytes to an instruction and back (R82, R87, R93)

A row fixes the bits under its mask and reads a field from the others, so the masked byte and the field's code are the byte. -/

theorem opByte_fieldLow3 {op : Byte} {group : BitVec 2} {mid : BitVec 3} (hop : op &&& 0xF8 = opByte group mid 0) :
    opByte group mid (fieldLow3 op) = op := by
  have hcode : ∀ group mid low, opByte group mid low = opByte group mid 0 ||| low.setWidth 8 := by decide
  have hsplit : ∀ op : Byte, (op &&& 0xF8) ||| (fieldLow3 op).setWidth 8 = op := by decide
  rw [hcode, ← hop, hsplit]

theorem opByte_fieldMid3 {op : Byte} {group : BitVec 2} {low : BitVec 3} (hop : op &&& 0xC7 = opByte group 0 low) :
    opByte group (fieldMid3 op) low = op := by
  have hcode : ∀ group mid low, opByte group mid low = opByte group 0 low ||| opByte 0 mid 0 := by decide
  have hsplit : ∀ op : Byte, (op &&& 0xC7) ||| opByte 0 (fieldMid3 op) 0 = op := by decide
  rw [hcode, ← hop, hsplit]

theorem opByte_fieldMid3_fieldLow3 {op : Byte} {group : BitVec 2} (hop : op &&& 0xC0 = opByte group 0 0) :
    opByte group (fieldMid3 op) (fieldLow3 op) = op := by
  have hcode : ∀ group mid low, opByte group mid low = opByte group 0 0 ||| opByte 0 mid low := by decide
  have hsplit : ∀ op : Byte, (op &&& 0xC0) ||| opByte 0 (fieldMid3 op) (fieldLow3 op) = op := by decide
  rw [hcode, ← hop, hsplit]

theorem opBytePair_fieldPair {op : Byte} {group : BitVec 2} {low : BitVec 4} (hop : op &&& 0xCF = opBytePair group 0 low) :
    opBytePair group (fieldPair op) low = op := by
  have hcode : ∀ group pair low, opBytePair group pair low = opBytePair group 0 low ||| opBytePair 0 pair 0 := by decide
  have hsplit : ∀ op : Byte, (op &&& 0xCF) ||| opBytePair 0 (fieldPair op) 0 = op := by decide
  rw [hcode, ← hop, hsplit]

theorem opByteCond_fieldCond {op : Byte} {group low : BitVec 3} (hop : op &&& 0xE7 = opByteCond group 0 low) :
    opByteCond group (fieldCond op) low = op := by
  have hcode : ∀ group cond low, opByteCond group cond low = opByteCond group 0 low ||| opByteCond 0 cond 0 := by decide
  have hsplit : ∀ op : Byte, (op &&& 0xE7) ||| opByteCond 0 (fieldCond op) 0 = op := by decide
  rw [hcode, ← hop, hsplit]

theorem reg8Code_of_reg8OfCode {c : BitVec 3} {r : Reg8} (hr : reg8OfCode c = some r) : reg8Code r = c := by
  have hall : ∀ c : BitVec 3, ∀ r ∈ reg8OfCode c, reg8Code r = c := by decide
  exact hall c r hr

@[simp] theorem wordTargetCode_wordTargetOfCode : ∀ c, wordTargetCode (wordTargetOfCode c) = c := by decide
@[simp] theorem condCode_condOfCode : ∀ c, condCode (condOfCode c) = c := by decide
@[simp] theorem condOk_condOfCode : ∀ c, condOk (condOfCode c) = true := by decide
@[simp] theorem bitIndexCode_bitIndexOf (op : Byte) : bitIndexCode (bitIndexOf op) = fieldMid3 op := by
  simp [bitIndexCode, bitIndexOf]
theorem bitIndexOk_bitIndexOf : ∀ op, bitIndexOk (bitIndexOf op) = true := by decide

theorem read_eq_some_iff {row : OpcodeRow} {op imm0 imm1 : Byte} {i : Instr} :
    row.read op imm0 imm1 = some i ↔ op &&& row.mask = row.pattern ∧ row.build op imm0 imm1 = some i :=
  Option.ite_none_right_eq_some

/-- The encoder gives back what the row reads: `lead`, the opcode byte, and the bytes after it up to the length. -/
def OpcodeRow.EncodesBack (lead : List Byte) (row : OpcodeRow) : Prop :=
  ∀ op imm0 imm1 i, row.read op imm0 imm1 = some i →
    i.wellFormed = true ∧ encodeWords i = (lead ++ [op, imm0, imm1]).take i.length

section Rows

variable {lead : List Byte} {name : String} {pattern : Byte}

/-- A row of one opcode byte. -/
theorem encodesBack_fixed {form : Byte → Byte → Instr}
    (henc : ∀ x y, (form x y).wellFormed = true ∧ encodeWords (form x y) = (lead ++ [pattern, x, y]).take (form x y).length) :
    OpcodeRow.EncodesBack lead ⟨name, 0xFF, pattern, fun _ x y => some (form x y)⟩ := by
  intro op imm0 imm1 i hread
  obtain ⟨hop, hbuild⟩ := read_eq_some_iff.mp hread
  obtain rfl : op = pattern := (BitVec.and_allOnes (x := op)).symm.trans hop
  obtain rfl := Option.some.inj hbuild
  exact henc imm0 imm1

/-- A row with a register code in its low three bits. -/
theorem encodesBack_low {group : BitVec 2} {mid : BitVec 3} {form : Reg8 → Instr}
    (henc : ∀ r x y, (form r).wellFormed = true ∧
      encodeWords (form r) = (lead ++ [opByte group mid (reg8Code r), x, y]).take (form r).length)
    (hpattern : pattern = opByte group mid 0) :
    OpcodeRow.EncodesBack lead ⟨name, 0xF8, pattern, fun op _ _ => (reg8OfCode (fieldLow3 op)).map form⟩ := by
  intro op imm0 imm1 i hread
  obtain ⟨hop, hbuild⟩ := read_eq_some_iff.mp hread
  obtain ⟨r, hr, rfl⟩ := Option.map_eq_some_iff.mp hbuild
  have hcode : opByte group mid (reg8Code r) = op := by
    rw [reg8Code_of_reg8OfCode hr, opByte_fieldLow3 (hop.trans hpattern)]
  exact hcode ▸ henc r imm0 imm1

/-- A row with a register code in its middle three bits. -/
theorem encodesBack_mid {group : BitVec 2} {low : BitVec 3} {form : Reg8 → Instr}
    (henc : ∀ r x y, (form r).wellFormed = true ∧
      encodeWords (form r) = (lead ++ [opByte group (reg8Code r) low, x, y]).take (form r).length)
    (hpattern : pattern = opByte group 0 low) :
    OpcodeRow.EncodesBack lead ⟨name, 0xC7, pattern, fun op _ _ => (reg8OfCode (fieldMid3 op)).map form⟩ := by
  intro op imm0 imm1 i hread
  obtain ⟨hop, hbuild⟩ := read_eq_some_iff.mp hread
  obtain ⟨r, hr, rfl⟩ := Option.map_eq_some_iff.mp hbuild
  have hcode : opByte group (reg8Code r) low = op := by
    rw [reg8Code_of_reg8OfCode hr, opByte_fieldMid3 (hop.trans hpattern)]
  exact hcode ▸ henc r imm0 imm1

/-- A row with a word target. -/
theorem encodesBack_pair {group : BitVec 2} {low : BitVec 4} {form : WordTarget → Instr}
    (henc : ∀ p x y, (form p).wellFormed = true ∧
      encodeWords (form p) = (lead ++ [opBytePair group (wordTargetCode p) low, x, y]).take (form p).length)
    (hpattern : pattern = opBytePair group 0 low) :
    OpcodeRow.EncodesBack lead ⟨name, 0xCF, pattern, fun op _ _ => some (form (wordTargetOfCode (fieldPair op)))⟩ := by
  intro op imm0 imm1 i hread
  obtain ⟨hop, hbuild⟩ := read_eq_some_iff.mp hread
  obtain rfl := Option.some.inj hbuild
  have hcode : opBytePair group (wordTargetCode (wordTargetOfCode (fieldPair op))) low = op := by
    rw [wordTargetCode_wordTargetOfCode, opBytePair_fieldPair (hop.trans hpattern)]
  simpa only [hcode] using henc (wordTargetOfCode (fieldPair op)) imm0 imm1

/-- A row with a condition. -/
theorem encodesBack_cond {group low : BitVec 3} {form : Cond → Byte → Byte → Instr}
    (henc : ∀ cc x y, condOk cc = true → (form cc x y).wellFormed = true ∧
      encodeWords (form cc x y) = (lead ++ [opByteCond group (condCode cc) low, x, y]).take (form cc x y).length)
    (hpattern : pattern = opByteCond group 0 low) :
    OpcodeRow.EncodesBack lead ⟨name, 0xE7, pattern, fun op x y => some (form (condOfCode (fieldCond op)) x y)⟩ := by
  intro op imm0 imm1 i hread
  obtain ⟨hop, hbuild⟩ := read_eq_some_iff.mp hread
  obtain rfl := Option.some.inj hbuild
  have hcode : opByteCond group (condCode (condOfCode (fieldCond op))) low = op := by
    rw [condCode_condOfCode, opByteCond_fieldCond (hop.trans hpattern)]
  simpa only [hcode] using henc (condOfCode (fieldCond op)) imm0 imm1 (condOk_condOfCode _)

/-- A row with a bit index and a register code. -/
theorem encodesBack_bitReg {group : BitVec 2} {form : Byte → Reg8 → Instr}
    (henc : ∀ b r x y, bitIndexOk b = true → (form b r).wellFormed = true ∧
      encodeWords (form b r) = (lead ++ [opByte group (bitIndexCode b) (reg8Code r), x, y]).take (form b r).length)
    (hpattern : pattern = opByte group 0 0) :
    OpcodeRow.EncodesBack lead
      ⟨name, 0xC0, pattern, fun op _ _ => (reg8OfCode (fieldLow3 op)).map (form (bitIndexOf op))⟩ := by
  intro op imm0 imm1 i hread
  obtain ⟨hop, hbuild⟩ := read_eq_some_iff.mp hread
  obtain ⟨r, hr, rfl⟩ := Option.map_eq_some_iff.mp hbuild
  have hcode : opByte group (bitIndexCode (bitIndexOf op)) (reg8Code r) = op := by
    rw [bitIndexCode_bitIndexOf, reg8Code_of_reg8OfCode hr, opByte_fieldMid3_fieldLow3 (hop.trans hpattern)]
  simpa only [hcode] using henc (bitIndexOf op) r imm0 imm1 (bitIndexOk_bitIndexOf op)

/-- A row with a bit index and the code of `(HL)`. -/
theorem encodesBack_bitMem {group : BitVec 2} {form : Byte → Instr}
    (henc : ∀ b x y, bitIndexOk b = true → (form b).wellFormed = true ∧
      encodeWords (form b) = (lead ++ [opByte group (bitIndexCode b) memHlCode, x, y]).take (form b).length)
    (hpattern : pattern = opByte group 0 memHlCode) :
    OpcodeRow.EncodesBack lead ⟨name, 0xC7, pattern, fun op _ _ => some (form (bitIndexOf op))⟩ := by
  intro op imm0 imm1 i hread
  obtain ⟨hop, hbuild⟩ := read_eq_some_iff.mp hread
  obtain rfl := Option.some.inj hbuild
  have hcode : opByte group (bitIndexCode (bitIndexOf op)) memHlCode = op := by
    rw [bitIndexCode_bitIndexOf, opByte_fieldMid3 (hop.trans hpattern)]
  simpa only [hcode] using henc (bitIndexOf op) imm0 imm1 (bitIndexOk_bitIndexOf op)

end Rows

theorem aluRows_encodeBack : ∀ row ∈ aluRows, row.EncodesBack [] := by
  simp only [aluRows, List.forall_mem_cons]
  refine ⟨?addR, ?addMem, ?addD8, ?adcR, ?adcMem, ?adcD8, ?subR, ?subMem, ?subD8, ?sbcR, ?sbcMem, ?sbcD8,
    ?andR, ?andMem, ?andD8, ?xorR, ?xorMem, ?xorD8, ?orR, ?orMem, ?orD8, ?cpR, ?cpMem, ?cpD8, List.forall_mem_nil _⟩
  case addR | adcR | subR | sbcR | andR | xorR | orR | cpR => exact encodesBack_low (fun _ _ _ => ⟨rfl, rfl⟩) rfl
  case addMem | adcMem | subMem | sbcMem | andMem | xorMem | orMem | cpMem => exact encodesBack_fixed fun _ _ => ⟨rfl, rfl⟩
  case addD8 | adcD8 | subD8 | sbcD8 | andD8 | xorD8 | orD8 | cpD8 => exact encodesBack_fixed fun _ _ => ⟨rfl, rfl⟩

theorem incDecFlagRows_encodeBack : ∀ row ∈ incDecFlagRows, row.EncodesBack [] := by
  simp only [incDecFlagRows, List.forall_mem_cons]
  refine ⟨?incR, ?incMem, ?decR, ?decMem, ?cpl, ?ccf, ?scf, List.forall_mem_nil _⟩
  case incR | decR => exact encodesBack_mid (fun _ _ _ => ⟨rfl, rfl⟩) rfl
  case incMem | decMem | cpl | ccf | scf => exact encodesBack_fixed fun _ _ => ⟨rfl, rfl⟩

theorem alu16Rows_encodeBack : ∀ row ∈ alu16Rows, row.EncodesBack [] := by
  simp only [alu16Rows, List.forall_mem_cons]
  refine ⟨?addHl, ?addSp, ?inc, ?dec, List.forall_mem_nil _⟩
  case addHl | inc | dec => exact encodesBack_pair (fun _ _ _ => ⟨rfl, rfl⟩) rfl
  case addSp => exact encodesBack_fixed fun _ _ => ⟨rfl, rfl⟩

theorem rotateARows_encodeBack : ∀ row ∈ rotateARows, row.EncodesBack [] := by
  simp only [rotateARows, List.forall_mem_cons]
  refine ⟨?rlca, ?rrca, ?rla, ?rra, List.forall_mem_nil _⟩
  case rlca | rrca | rla | rra => exact encodesBack_fixed fun _ _ => ⟨rfl, rfl⟩

/-- The operand of a three-byte instruction has its low byte first. -/
theorem jumpRows_encodeBack : ∀ row ∈ jumpRows, row.EncodesBack [] := by
  simp only [jumpRows, List.forall_mem_cons]
  refine ⟨?jp, ?jpCc, ?jr, ?jrCc, ?jpHl, List.forall_mem_nil _⟩
  case jp => exact encodesBack_fixed fun lo hi => ⟨rfl, by simp [encodeWords, Instr.length]⟩
  case jpCc =>
    exact encodesBack_cond (group := 0b110) (low := 0b010) (form := fun cc lo hi => .jpCcA16 cc (wordOfBytes hi lo))
      (fun _ lo hi hcc => ⟨hcc, by simp [encodeWords, Instr.length]⟩) rfl
  case jr | jpHl => exact encodesBack_fixed fun _ _ => ⟨rfl, rfl⟩
  case jrCc => exact encodesBack_cond (form := fun cc e8 _ => .jrCcE8 cc e8) (fun _ _ _ hcc => ⟨hcc, rfl⟩) rfl

theorem rotateShiftRows_encodeBack : ∀ row ∈ rotateShiftRows, row.EncodesBack [prefixByte] := by
  simp only [rotateShiftRows, List.forall_mem_cons]
  refine ⟨?rlcR, ?rlcMem, ?rrcR, ?rrcMem, ?rlR, ?rlMem, ?rrR, ?rrMem, ?slaR, ?slaMem, ?sraR, ?sraMem, ?swapR, ?swapMem,
    ?srlR, ?srlMem, List.forall_mem_nil _⟩
  case rlcR | rrcR | rlR | rrR | slaR | sraR | swapR | srlR => exact encodesBack_low (fun _ _ _ => ⟨rfl, rfl⟩) rfl
  case rlcMem | rrcMem | rlMem | rrMem | slaMem | sraMem | swapMem | srlMem =>
    exact encodesBack_fixed fun _ _ => ⟨rfl, rfl⟩

theorem bitRows_encodeBack : ∀ row ∈ bitRows, row.EncodesBack [prefixByte] := by
  simp only [bitRows, List.forall_mem_cons]
  refine ⟨?bitR, ?bitMem, ?resR, ?resMem, ?setR, ?setMem, List.forall_mem_nil _⟩
  case bitR | resR | setR => exact encodesBack_bitReg (fun _ _ _ _ hb => ⟨hb, rfl⟩) rfl
  case bitMem | resMem | setMem => exact encodesBack_bitMem (fun _ _ _ hb => ⟨hb, rfl⟩) rfl

theorem unprefixedRows_encodeBack : ∀ row ∈ rowsOf false, row.EncodesBack [] := by
  intro row hrow
  have hrow : row ∈ aluRows ++ incDecFlagRows ++ alu16Rows ++ rotateARows ++ jumpRows := hrow
  simp only [List.mem_append] at hrow
  obtain (((halu | hincDec) | halu16) | hrotate) | hjump := hrow
  · exact aluRows_encodeBack row halu
  · exact incDecFlagRows_encodeBack row hincDec
  · exact alu16Rows_encodeBack row halu16
  · exact rotateARows_encodeBack row hrotate
  · exact jumpRows_encodeBack row hjump

theorem prefixedRows_encodeBack : ∀ row ∈ rowsOf true, row.EncodesBack [prefixByte] := by
  intro row hrow
  obtain hrotate | hbit := List.mem_append.mp hrow
  · exact rotateShiftRows_encodeBack row hrotate
  · exact bitRows_encodeBack row hbit

/-- An instruction that decodes was read by a row of its space. -/
theorem exists_read_of_decodeOp {admitted : Bool → Byte → Bool} {prefixed : Bool} {op imm0 imm1 : Byte} {i : Instr}
    (h : decodeOp admitted prefixed op imm0 imm1 = .ok i) : ∃ row ∈ rowsOf prefixed, row.read op imm0 imm1 = some i := by
  unfold decodeOp at h
  split at h
  · next j hj =>
    split at h
    · obtain rfl := Except.ok.inj h
      exact List.exists_of_findSome?_eq_some hj
    · cases h
  · cases h

/-- What decodes is well formed and is encoded by the bytes it was read from. -/
theorem encodeWords_of_decode {b0 b1 b2 : Byte} {i : Instr} (h : decode b0 b1 b2 = .ok i) :
    i.wellFormed = true ∧ encodeWords i = [b0, b1, b2].take i.length := by
  unfold decode decodeWith at h
  split at h
  · next hlead =>
    obtain ⟨row, hrow, hread⟩ := exists_read_of_decodeOp h
    obtain ⟨hwf, henc⟩ := prefixedRows_encodeBack row hrow _ _ _ _ hread
    obtain ⟨-, -, hle⟩ := encodedLength i
    have htake : ([prefixByte] ++ [b1, b2, 0]).take i.length = [prefixByte, b1, b2].take i.length :=
      List.take_append_of_le_length (l₁ := [prefixByte, b1, b2]) hle
    exact ⟨hwf, by rw [henc, htake, hlead]⟩
  · obtain ⟨row, hrow, hread⟩ := exists_read_of_decodeOp h
    exact unprefixedRows_encodeBack row hrow _ _ _ _ hread

/-- Settles O11: a well-formed instruction is encoded by `encodeWords`, which gives back the bytes. -/
theorem encodeOfDecode : Obligations.EncodeOfDecode := by
  intro b0 b1 b2 i hdec
  obtain ⟨hwf, henc⟩ := encodeWords_of_decode hdec
  exact ⟨hwf, (encode_of_wellFormed hwf).trans henc⟩

/-! ## Which first bytes decode, and the length that they tell (R82, R84, R92) -/

/-- The length that a first byte tells. -/
def lengthOfLead (b0 : Byte) : Nat := if b0 ∈ twoByteLeads then 2 else if b0 ∈ threeByteLeads then 3 else 1

/-- The first byte of an encoding tells its length. -/
theorem length_eq_of_lead (i : Instr) : i.length = lengthOfLead ((encodeWords i).getD 0 0) := by
  cases i with
  | addAR r | adcAR r | subAR r | sbcAR r | andAR r | xorAR r | orAR r | cpAR r | incR r | decR r => cases r <;> rfl
  | addHlRr p | incRr p | decRr p => cases p <;> rfl
  | jpCcA16 cc | jrCcE8 cc => cases cc <;> rfl
  | _ => rfl

/-- Settles O15: what decodes is encoded by the bytes it was read from, and the first of them tells the length. -/
theorem lengthFromFirstByte : Obligations.LengthFromFirstByte := by
  intro b0 b1 b2 i hdec
  obtain ⟨-, henc⟩ := encodeWords_of_decode hdec
  obtain ⟨-, hpos, -⟩ := encodedLength i
  have hlead : (encodeWords i).getD 0 0 = b0 := by
    obtain ⟨n, hn⟩ := Nat.exists_eq_succ_of_ne_zero (Nat.ne_of_gt hpos)
    rw [henc, hn]; rfl
  rw [length_eq_of_lead i, hlead]
  rfl

/-- Settles O12: each space has 256 bytes, so the rows that match are counted. -/
theorem atMostOneRowMatches : Obligations.AtMostOneRowMatches := by
  refine ⟨?plain, ?extended, ?lead⟩
  case plain | extended => decide
  case lead => rfl

/-- A byte that is neither 0xCB nor listed as unknown has a row (R92). -/
theorem unprefixedRows_hit_known {op : Byte} (hop : op ≠ 0xCB) (hknown : op ∉ unknownBytes) :
    ∃ row ∈ rowsOf false, row.hits op = true := by
  have hall : ∀ op : Byte, op ≠ 0xCB → op ∉ unknownBytes → (rowsOf false).any (·.hits op) = true := by decide
  exact List.any_eq_true.mp (hall op hop hknown)

theorem decode_plain {b0 : Byte} (hlead : b0 ≠ 0xCB) (b1 b2 : Byte) :
    decode b0 b1 b2 = decodeOp Config.admitted false b0 b1 b2 := if_neg hlead

/-- Settles O13: no row matches a listed byte, and some row matches every other byte but 0xCB. -/
theorem unprefixedUnknownBytes : Obligations.UnprefixedUnknownBytes := by
  refine ⟨?count, ?unknown, ?known, ?zero⟩
  case count => rfl
  case unknown =>
    intro b0 b1 b2 hmem
    have hlead : b0 ≠ prefixByte := ne_of_mem_of_not_mem hmem prefixByte_not_mem_unknownBytes
    rw [decode_plain hlead, decodeOp_of_no_hit (unknownBytes_hit_no_row hmem)]
  case known =>
    intro b0 b1 b2 hlead hknown
    rw [decode_plain hlead]
    exact exists_decodeOp_ok (unprefixedRows_hit_known hlead hknown) rfl b1 b2
  case zero => decide

/-- Settles O8: each word by evaluation of the decoder. -/
theorem sampleWordsDecode : Obligations.SampleWordsDecode :=
  ⟨rfl, rfl, rfl, rfl, rfl, rfl, rfl, rfl, rfl, rfl, rfl, rfl, rfl, rfl, rfl, rfl, rfl, rfl, rfl⟩

end Sys2Proof
end

section
/-! Memory as data in one form (10_state.md section 4), byte targets (20_memory.md R56 to R59), and reset (R40). -/

namespace Sys2Proof.Machine

open Sys2Proof.Safety

/-! ## A canonical memory is determined by its reads -/

theorem wfFrom_cons_iff {lo k : Nat} {v : Byte} {m : Memory} : Memory.wfFrom lo ((k, v) :: m) = true ↔
    lo ≤ k ∧ k < 65536 ∧ v ≠ Config.unlistedByte ∧ Memory.wfFrom (k + 1) m = true := by
  simp [Memory.wfFrom, and_assoc]

/-- Cells from `lo` on list no address below `lo`. -/
theorem memLookup_of_lt {m : Memory} {lo j : Nat} (hwf : Memory.wfFrom lo m = true) (hj : j < lo) :
    memLookup m j = Config.unlistedByte := by
  induction m generalizing lo with
  | nil => rfl
  | cons cell m ih =>
    obtain ⟨k, v⟩ := cell
    obtain ⟨hlo, -, -, hrest⟩ := wfFrom_cons_iff.mp hwf
    have hne : k ≠ j := by omega
    simp only [memLookup, if_neg hne]
    exact ih hrest (by omega)

@[simp] theorem memLookup_cons_self (k : Nat) (v : Byte) (m : Memory) : memLookup ((k, v) :: m) k = v := if_pos rfl

/-- Two canonical lists with equal reads: the lists read alike at the lesser of their first addresses, so they have the
same first cell, and at that address neither rest lists anything. -/
theorem eq_of_memLookup_eq {m m' : Memory} {lo : Nat} (hwf : Memory.wfFrom lo m = true) (hwf' : Memory.wfFrom lo m' = true)
    (hreads : ∀ j < 65536, memLookup m j = memLookup m' j) : m = m' := by
  induction m generalizing m' lo with
  | nil =>
    cases m' with
    | nil => rfl
    | cons cell' rest' =>
      obtain ⟨k', v'⟩ := cell'
      obtain ⟨-, hk', hv', -⟩ := wfFrom_cons_iff.mp hwf'
      have hread := hreads k' hk'
      rw [memLookup_cons_self] at hread
      exact absurd hread.symm hv'
  | cons cell rest ih =>
    obtain ⟨k, v⟩ := cell
    obtain ⟨hlo, hk, hv, hrest⟩ := wfFrom_cons_iff.mp hwf
    have hread := hreads k hk
    rw [memLookup_cons_self] at hread
    cases m' with
    | nil => exact absurd hread hv
    | cons cell' rest' =>
      obtain ⟨k', v'⟩ := cell'
      obtain ⟨hlo', hk', hv', hrest'⟩ := wfFrom_cons_iff.mp hwf'
      have hread' := hreads k' hk'
      rw [memLookup_cons_self] at hread'
      obtain hlt | rfl | hgt := lt_trichotomy k k'
      · have hbelow : Memory.wfFrom k' ((k', v') :: rest') = true := wfFrom_cons_iff.mpr ⟨le_rfl, hk', hv', hrest'⟩
        exact absurd (hread.trans (memLookup_of_lt hbelow hlt)) hv
      · obtain rfl : v = v' := hread.trans (memLookup_cons_self k v' rest')
        have hrests : ∀ j < 65536, memLookup rest j = memLookup rest' j := by
          intro j hj
          by_cases hkj : k = j
          · subst hkj
            rw [memLookup_of_lt hrest (Nat.lt_succ_self k), memLookup_of_lt hrest' (Nat.lt_succ_self k)]
          · simpa only [memLookup, if_neg hkj] using hreads j hj
        rw [ih hrest hrest' hrests]
      · have hbelow : Memory.wfFrom k ((k, v) :: rest) = true := wfFrom_cons_iff.mpr ⟨le_rfl, hk, hv, hrest⟩
        exact absurd (hread'.symm.trans (memLookup_of_lt hbelow hgt)) hv'

/-- Settles O7: the 16-bit addresses are the keys below 65536. -/
theorem equalReadsEqualMemory : Obligations.EqualReadsEqualMemory := by
  intro m m' hwf hwf' hreads
  refine eq_of_memLookup_eq hwf hwf' fun j hj => ?_
  have hread := hreads (BitVec.ofNat 16 j)
  have hkey : (BitVec.ofNat 16 j).toNat = j := Nat.mod_eq_of_lt hj
  rwa [memRead, memRead, hkey] at hread

/-! ## Byte targets (R57 to R59) -/

/-- Settles O5: the case tables are the model's own; a write of `(HL)` keeps HL, so the target reads back at the address
written. -/
theorem byteTargetsResolveAndWrite : Obligations.ByteTargetsResolveAndWrite := by
  refine ⟨?read, resolveByte_reg, resolveByte_memHl, resolveByte_imm, ?writeReg, ?writeMem, writeByte_imm, ?readBack⟩
  case read => exact fun _ => ⟨rfl, rfl, rfl, rfl, rfl, rfl, rfl⟩
  case writeReg => exact fun _ _ => ⟨rfl, rfl, rfl, rfl, rfl, rfl, rfl⟩
  case writeMem => exact fun v s => ⟨rfl, fun a => memRead_memWrite s.mem (getHl s) a v⟩
  case readBack =>
    intro t v s himm
    cases t with
    | reg r => exact readReg_writeReg_same r v s
    | memHl => exact memRead_memWrite_same s.mem (getHl s) v
    | imm d8 => exact absurd rfl (himm d8)

/-! ## Reset (R40) -/

/-- Settles O1: every field of the reset record is the constant of its row, and the views are pairs of zero bytes. -/
theorem resetSetsEveryField : Obligations.ResetSetsEveryField := by
  have hpair : wordOfBytes 0 0 = 0 := by decide
  have hflags : flagsToByte ⟨false, false, false, false⟩ = 0 := by decide
  have haf : wordOfBytes 0 (flagsToByte ⟨false, false, false, false⟩) = 0 := hflags ▸ hpair
  refine ⟨fun resetPc mem0 => ⟨?registers, rfl, hflags, rfl, haf, hpair, hpair, hpair, rfl, rfl, rfl⟩, rfl⟩
  case registers => exact fun r => by cases r <;> rfl

/-- Settles O2: the list of cells is empty, and an address that it does not list reads as 0x00. -/
theorem resetMemoryReadsZero : Obligations.ResetMemoryReadsZero := ⟨rfl, fun _ => rfl⟩

theorem resetWith_inv (resetPc : Word) {mem0 : Memory} (hwf : mem0.wf = true) : Inv (State.resetWith resetPc mem0) :=
  ⟨hwf, trivial⟩

/-- Settles O24: reset takes the memory it is given and has no fault. -/
theorem resetMeetsTheInvariant : Obligations.ResetMeetsTheInvariant :=
  ⟨resetWith_inv Config.resetPc reset_mem_wf, fun resetPc _ hwf => resetWith_inv resetPc hwf⟩

end Sys2Proof.Machine
end

section
/-! What an instruction does to the state, said once for all of them: the next pc (10_state.md R33), and which registers, flags
and bytes of memory it leaves as they were (10_state.md R20, R39; 20_memory.md R58). -/

namespace Sys2Proof.Machine

open Sys2Proof.Safety

/-- Each flag that is not among the `written` ones is the same before and after. -/
def FlagsKept (written before after : Flags) : Prop :=
  (written.z = false → after.z = before.z) ∧ (written.n = false → after.n = before.n) ∧
  (written.h = false → after.h = before.h) ∧ (written.c = false → after.c = before.c)

theorem FlagsKept.refl (written f : Flags) : FlagsKept written f f := ⟨fun _ => rfl, fun _ => rfl, fun _ => rfl, fun _ => rfl⟩

theorem flagsKept_of_all_written (before after : Flags) : FlagsKept ⟨true, true, true, true⟩ before after :=
  ⟨nofun, nofun, nofun, nofun⟩

/-- The instruction `i` takes the state `s` to `t` within the tables of what it may write: status is kept, pc is the one of
the table, and a register, a flag or a byte that the tables do not name is as before. -/
structure Effect (i : Instr) (s t : State) : Prop where
  status : t.status = s.status
  pc : t.pc = nextPc i s
  reg : ∀ r, r ∉ regsWritten i → readReg r t = readReg r s
  flags : FlagsKept (flagsWritten i) s.f t.f
  mem : (storeAddress i s = none ∧ t.mem = s.mem) ∨
    (storeAddress i s = some (getHl s) ∧ ∃ v, t.mem = memWrite s.mem (getHl s) v)

theorem readReg_writeWord_of_not_mem {p : WordTarget} {r : Reg8} (hr : r ∉ pairRegs p) (v : Word) (s : State) :
    readReg r (writeWord p v s) = readReg r s := by
  revert hr
  cases p <;> cases r <;> simp [pairRegs, readReg, writeWord]

/-- A byte target holds no flag, so writing back the flags after a write of it does nothing. -/
theorem setFlags_writeByte_self (t : ByteTarget) (v : Byte) (s : State) : setFlags s.f (writeByte t v s) = writeByte t v s := by
  conv_lhs => rw [← writeByte_f t v s]
  rfl

/-- A word target holds no flag either. -/
theorem setFlags_writeWord_self (p : WordTarget) (v : Word) (s : State) : setFlags s.f (writeWord p v s) = writeWord p v s := by
  conv_lhs => rw [← writeWord_f p v s]
  rfl

/-- R140, R143: a bit test keeps C, whatever the index. -/
theorem aluBitCheck_c (v b : Byte) (f : Flags) : (aluBitCheck v b f).c = f.c := by
  unfold aluBitCheck
  split <;> rfl

/-- R33, R272: the target of a relative jump, taken or not, with `sext_16` written out. -/
theorem jumpRelativeTarget_eq_relativeTarget (t : Cond) (e8 : Byte) (s : State) :
    jumpRelativeTarget t e8 s = if evaluateCondition s.f t then relativeTarget e8 s else s.pc + 2 := by
  rw [jumpRelativeTarget, sext16_eq_add]
  rfl

/-! ## The effect of the operations, by what they write -/

section Operations

variable {i : Instr} {s : State}

/-- An operation that writes F and pc alone. -/
theorem effect_setFlags {f : Flags} {pc : Word} (hpc : nextPc i s = pc) (hflags : FlagsKept (flagsWritten i) s.f f)
    (hstore : storeAddress i s = none) : Effect i s (setPc pc (setFlags f s)) where
  status := rfl
  pc := hpc.symm
  reg := fun r _ => by rw [readReg_setPc, readReg_setFlags]
  flags := hflags
  mem := .inl ⟨hstore, rfl⟩

/-- An operation that writes one register, F and pc. -/
theorem effect_writeReg {r : Reg8} {v : Byte} {f : Flags} {pc : Word} (hpc : nextPc i s = pc) (hregs : regsWritten i = [r])
    (hflags : FlagsKept (flagsWritten i) s.f f) (hstore : storeAddress i s = none) :
    Effect i s (setPc pc (setFlags f (writeReg r v s))) where
  status := by simp
  pc := hpc.symm
  reg := fun q hq => by
    rw [hregs, List.mem_singleton] at hq
    simp [readReg_writeReg_ne hq]
  flags := hflags
  mem := .inl ⟨hstore, by simp⟩

/-- An operation that writes the byte at HL, F and pc. -/
theorem effect_writeMemHl {v : Byte} {f : Flags} {pc : Word} (hpc : nextPc i s = pc)
    (hflags : FlagsKept (flagsWritten i) s.f f) (hstore : storeAddress i s = some (getHl s)) :
    Effect i s (setPc pc (setFlags f (writeByte .memHl v s))) where
  status := rfl
  pc := hpc.symm
  reg := fun r _ => by cases r <;> rfl
  flags := hflags
  mem := .inr ⟨hstore, v, rfl⟩

/-- An operation that writes a word target, F and pc. -/
theorem effect_writeWord {p : WordTarget} {v : Word} {f : Flags} {pc : Word} (hpc : nextPc i s = pc)
    (hregs : ∀ r ∈ pairRegs p, r ∈ regsWritten i) (hflags : FlagsKept (flagsWritten i) s.f f)
    (hstore : storeAddress i s = none) : Effect i s (setPc pc (setFlags f (writeWord p v s))) where
  status := by simp
  pc := hpc.symm
  reg := fun r hr => by
    have hpair : r ∉ pairRegs p := fun h => hr (hregs r h)
    rw [readReg_setPc, readReg_setFlags, readReg_writeWord_of_not_mem hpair]
  flags := hflags
  mem := .inl ⟨hstore, by simp⟩

end Operations

/-- Every instruction answers a next state, and that state is within its tables. -/
theorem exec_effect (i : Instr) (s : State) : ∃ t, exec i s = .next t ∧ Effect i s t := by
  cases i with
  | addAR | addAMem | addAD8 | adcAR | adcAMem | adcAD8 | subAR | subAMem | subAD8 | sbcAR | sbcAMem | sbcAD8
  | andAR | andAMem | andAD8 | xorAR | xorAMem | xorAD8 | orAR | orAMem | orAD8
  | rrca | rra | rrcR | rrR | slaR | sraR | swapR | srlR =>
    exact ⟨_, rfl, effect_writeReg rfl rfl (flagsKept_of_all_written _ _) rfl⟩
  | cpAR | cpAMem | cpAD8 => exact ⟨_, rfl, effect_setFlags rfl (flagsKept_of_all_written _ _) rfl⟩
  | incR | decR | cpl => exact ⟨_, rfl, effect_writeReg rfl rfl ⟨nofun, nofun, nofun, fun _ => rfl⟩ rfl⟩
  | rlca | rla | rlcR | rlR => exact ⟨_, rfl, effect_writeReg rfl rfl ⟨fun _ => rfl, nofun, nofun, nofun⟩ rfl⟩
  | incMem | decMem => exact ⟨_, rfl, effect_writeMemHl rfl ⟨nofun, nofun, nofun, fun _ => rfl⟩ rfl⟩
  | rlcMem | rlMem => exact ⟨_, rfl, effect_writeMemHl rfl ⟨fun _ => rfl, nofun, nofun, nofun⟩ rfl⟩
  | rrcMem | rrMem | slaMem | sraMem | swapMem | srlMem =>
    exact ⟨_, rfl, effect_writeMemHl rfl (flagsKept_of_all_written _ _) rfl⟩
  | ccf | scf => exact ⟨_, rfl, effect_setFlags rfl ⟨fun _ => rfl, nofun, nofun, nofun⟩ rfl⟩
  | bitBR | bitBMem => exact ⟨_, rfl, effect_setFlags rfl ⟨nofun, nofun, nofun, fun _ => aluBitCheck_c ..⟩ rfl⟩
  | resBR | setBR =>
    refine ⟨_, rfl, ?_⟩
    rw [changeBit, ← setFlags_writeByte_self]
    exact effect_writeReg rfl rfl (.refl _ _) rfl
  | resBMem | setBMem => exact ⟨_, rfl, effect_writeMemHl rfl (.refl _ _) rfl⟩
  | addHlRr p => exact ⟨_, rfl, effect_writeWord (p := .hl) rfl (fun _ => id) (flagsKept_of_all_written _ _) rfl⟩
  | addSpE8 e8 => exact ⟨_, rfl, effect_writeWord (p := .sp) rfl nofun (flagsKept_of_all_written _ _) rfl⟩
  | incRr p | decRr p =>
    refine ⟨_, rfl, ?_⟩
    rw [← setFlags_writeWord_self]
    exact effect_writeWord rfl (fun _ => id) (.refl _ _) rfl
  | jpA16 | jpCcA16 | jpHl => exact ⟨_, rfl, effect_setFlags rfl (.refl _ s.f) rfl⟩
  | jrE8 e8 =>
    exact ⟨_, rfl, effect_setFlags (f := s.f) (jumpRelativeTarget_eq_relativeTarget .always e8 s).symm (.refl _ _) rfl⟩
  | jrCcE8 cc e8 =>
    exact ⟨_, rfl, effect_setFlags (f := s.f) (jumpRelativeTarget_eq_relativeTarget cc e8 s).symm (.refl _ _) rfl⟩

theorem effect_of_exec {i : Instr} {s t : State} (h : exec i s = .next t) : Effect i s t := by
  obtain ⟨t', hexec, heffect⟩ := exec_effect i s
  obtain rfl := Host.Outcome.next.inj (h.symm.trans hexec)
  exact heffect

/-! ## The frame of an instruction -/

/-- Settles O53: the pc of the effect; a fault leaves pc alone. -/
theorem nextPcTable : Obligations.NextPcTable := by
  refine ⟨fun i s => ?instruction, fun s u hrun hfetch => ?fault⟩
  case instruction =>
    obtain ⟨t, hexec, heffect⟩ := exec_effect i s
    exact ⟨t, hexec, heffect.pc⟩
  case fault => exact ⟨takeFault u s, stepWith_of_unknown hrun hfetch, rfl⟩

/-- Settles O54: the register clause of the effect. -/
theorem byteRegisterFrame : Obligations.ByteRegisterFrame := fun _ _ _ r hexec hr => (effect_of_exec hexec).reg r hr

/-- Settles O56: the flag clause of the effect. -/
theorem flagFrame : Obligations.FlagFrame := fun _ _ _ hexec => (effect_of_exec hexec).flags

/-- Only the byte at HL can read differently after an instruction. -/
theorem Effect.memRead_of_ne {i : Instr} {s t : State} (h : Effect i s t) {a : Word} (ha : a ≠ getHl s) :
    memRead t.mem a = memRead s.mem a := by
  obtain ⟨-, hmem⟩ | ⟨-, v, hmem⟩ := h.mem
  · rw [hmem]
  · rw [hmem, memRead_memWrite_ne _ ha]

theorem storeAddress_eq_getHl {i : Instr} {s : State} {a : Word} (h : storeAddress i s = some a) : a = getHl s := by
  obtain ⟨t, -, heffect⟩ := exec_effect i s
  obtain ⟨hnone, -⟩ | ⟨hsome, -⟩ := heffect.mem
  · rw [hnone] at h; cases h
  · exact Option.some.inj (h.symm.trans hsome)

/-- Settles O57: an instruction that stores does so at HL, and one that does not leaves memory as it is. -/
theorem memoryFrame : Obligations.MemoryFrame := by
  intro i s t hexec
  have heffect := effect_of_exec hexec
  refine ⟨?others, ?storesNothing, fun _ => storeAddress_eq_getHl, heffect.status⟩
  case others =>
    intro a ha b hb
    exact heffect.memRead_of_ne (storeAddress_eq_getHl ha ▸ hb)
  case storesNothing =>
    intro hnone b
    obtain ⟨-, hmem⟩ | ⟨hsome, -⟩ := heffect.mem
    · rw [hmem]
    · rw [hnone] at hsome; cases hsome

end Sys2Proof.Machine
end

section
/-! What every step keeps: the invariant, the bytes away from HL, and status but for a decode failure (10_state.md section 4,
60_exceptions.md sections 1 and 2). -/

namespace Sys2Proof.Machine

open Sys2Proof.Safety

/-- The three things a step that answers `t` can have done: stayed faulted, run an instruction within its tables, or taken the
fault (30_encoding.md R80). -/
theorem step_cases {s t : State} (h : step s = .next t) :
    ((∃ prefixed op, s.status = .fault prefixed op) ∧ t = s) ∨
    (s.status = .running ∧ ∃ i, fetchDecode Config.admitted s = .ok i ∧ exec i s = .next t ∧ Effect i s t) ∨
    (s.status = .running ∧ ∃ u, fetchDecode Config.admitted s = .error u ∧ t = takeFault u s) := by
  obtain ⟨hfault, hnext⟩ | ⟨hrun, i, hfetch, hexec⟩ | ⟨hrun, u, hfetch, hnext⟩ := stepWith_cases h
  · exact .inl ⟨hfault, Host.Outcome.next.inj hnext⟩
  · exact .inr (.inl ⟨hrun, i, hfetch, hexec.symm, effect_of_exec hexec.symm⟩)
  · exact .inr (.inr ⟨hrun, u, hfetch, Host.Outcome.next.inj hnext⟩)

/-! ## The invariant -/

/-- A running core has no fault to be precise about. -/
theorem faultIsPrecise_of_running {s : State} (hrun : s.status = .running) : faultIsPrecise s := by
  unfold faultIsPrecise
  rw [hrun]
  trivial

/-- The fault leaves pc and memory alone, so the bytes that failed to decode still do (60_exceptions.md R300). -/
theorem takeFault_precise {s : State} {u : Unknown} (hfetch : fetchDecode Config.admitted s = .error u) :
    faultIsPrecise (takeFault u s) := hfetch

theorem Effect.mem_wf {i : Instr} {s t : State} (h : Effect i s t) (hwf : s.mem.wf = true) : t.mem.wf = true := by
  obtain ⟨-, hmem⟩ | ⟨-, v, hmem⟩ := h.mem
  · rwa [hmem]
  · rw [hmem]; exact memWrite_wf hwf (getHl s) v

/-- Settles O25: a faulted core stays as it is, an instruction keeps the core running and memory canonical, and a fault is
precise when it is taken. -/
theorem everyStepKeepsTheInvariant : Obligations.EveryStepKeepsTheInvariant := by
  intro s t hinv hstep
  obtain ⟨-, rfl⟩ | ⟨hrun, i, -, -, heffect⟩ | ⟨-, u, hfetch, rfl⟩ := step_cases hstep
  · exact hinv
  · exact ⟨heffect.mem_wf hinv.memWf, faultIsPrecise_of_running (heffect.status.trans hrun)⟩
  · exact ⟨hinv.memWf, takeFault_precise hfetch⟩

/-! ## Status and memory -/

theorem exists_step_next (s : State) : ∃ t, step s = .next t := by
  obtain ⟨-, hnext⟩ | ⟨-, i, -, hexec⟩ | ⟨-, u, -, hnext⟩ := stepWith_cases (admitted := Config.admitted) (s := s) rfl
  · exact ⟨s, hnext⟩
  · obtain ⟨t, ht, -⟩ := exec_effect i s
    exact ⟨t, hexec.trans ht⟩
  · exact ⟨takeFault u s, hnext⟩

/-- Settles O21: every instruction has an effect, which keeps status, and each case of a step answers a state. -/
theorem decodedInstructionsComplete : Obligations.DecodedInstructionsComplete := by
  refine ⟨fun i s => ?instruction, exists_step_next⟩
  case instruction =>
    obtain ⟨t, hexec, heffect⟩ := exec_effect i s
    exact ⟨t, hexec, heffect.status⟩

/-- Settles O22: a faulted core and an instruction keep status, which leaves the fault. -/
theorem onlyADecodeFailureChangesStatus : Obligations.OnlyADecodeFailureChangesStatus := by
  intro s t hstep hchanged
  obtain ⟨-, rfl⟩ | ⟨-, i, -, -, heffect⟩ | ⟨hrun, u, hfetch, rfl⟩ := step_cases hstep
  · exact absurd rfl hchanged
  · exact absurd heffect.status hchanged
  · exact ⟨hrun, u, hfetch, rfl⟩

/-- Settles O58: of the cases of a step, only an instruction writes memory, and only at HL. -/
theorem stepWritesAtMostOneByte : Obligations.StepWritesAtMostOneByte := by
  intro s t hstep
  obtain ⟨-, rfl⟩ | ⟨hrun, i, -, -, heffect⟩ | ⟨hrun, u, -, rfl⟩ := step_cases hstep
  · exact ⟨fun _ _ => rfl, fun ⟨_, hne⟩ => absurd rfl hne⟩
  · exact ⟨fun _ ha => heffect.memRead_of_ne ha, fun _ => hrun⟩
  · exact ⟨fun _ _ => rfl, fun _ => hrun⟩

/-! ## Which instruction a step runs -/

/-- Settles O16: the bytes at pc are what a running core fetches. -/
theorem stepRunsTheDecodedInstruction : Obligations.StepRunsTheDecodedInstruction :=
  fun _ _ hrun hdec => stepWith_of_decoded hrun hdec

/-- Settles O17: the bytes from pc on begin with the encoding, so they decode to the instruction. -/
theorem stepRunsEncodedInstruction : Obligations.StepRunsEncodedInstruction := by
  intro s i hrun hwf hbytes
  rw [encode_of_wellFormed hwf] at hbytes
  have hdec := decode_of_encodeWords hwf (b := fun k => memRead s.mem (s.pc + BitVec.ofNat 16 k)) hbytes
  have hpc : s.pc + BitVec.ofNat 16 0 = s.pc := BitVec.add_zero _
  rw [hpc] at hdec
  exact stepWith_of_decoded hrun hdec

/-- An admitted byte decodes as in the default core. -/
theorem decodeOp_of_admitted {admitted : Bool → Byte → Bool} {prefixed : Bool} {op : Byte}
    (hadm : admitted prefixed op = true) (imm0 imm1 : Byte) :
    decodeOp admitted prefixed op imm0 imm1 = decodeOp Config.admitted prefixed op imm0 imm1 := by
  simp only [decodeOp, hadm, Config.admitted]

/-- Every core fetches the same pair: the mark that the byte 0xCB at pc sets, and the opcode byte. -/
theorem fetchDecode_eq_decodeOp (s : State) :
    let prefixed := decide (memRead s.mem s.pc = 0xCB)
    let op := if prefixed then memRead s.mem (s.pc + 1) else memRead s.mem s.pc
    ∃ imm0 imm1, ∀ admitted, fetchDecode admitted s = decodeOp admitted prefixed op imm0 imm1 := by
  by_cases hlead : memRead s.mem s.pc = 0xCB
  · simp only [hlead, decide_true, if_true]
    exact ⟨_, _, fun admitted => fetchDecode_extended admitted hlead⟩
  · simp only [hlead, decide_false, Bool.false_eq_true, if_false]
    exact ⟨_, _, fun admitted => fetchDecode_plain admitted hlead⟩

/-- Settles O23: ADMITTED either leaves the decoding of the fetched pair as it is or makes it fail. -/
theorem withholdingOnlyFaults : Obligations.WithholdingOnlyFaults := by
  refine ⟨fun admitted s hrun => ?_, fun _ _ => rfl⟩
  obtain ⟨imm0, imm1, hfetch⟩ := fetchDecode_eq_decodeOp s
  refine ⟨fun hadm => ?admits, fun hadm => ?withholds⟩
  case admits =>
    have hsame : fetchDecode admitted s = fetchDecode Config.admitted s := by
      rw [hfetch, hfetch, decodeOp_of_admitted hadm]
    simp only [step, stepWith, hsame]
  case withholds =>
    exact stepWith_of_unknown hrun ((hfetch admitted).trans (decodeOp_withheld hadm imm0 imm1))

/-! ## Hazards (70_reset_and_hazards.md sections 2 and 3) -/

/-- Settles O26: each jump writes pc alone, and its target is pc. -/
theorem selfLoopLeavesTheState : Obligations.SelfLoopLeavesTheState := by
  refine ⟨fun s hrun hop he8 => ?relative, fun s hrun hop hpc => ?absolute⟩
  case relative =>
    have hback : pcAfter 2 s + sext16 0xFE = s.pc := by
      have hsum : BitVec.ofNat 16 2 + sext16 0xFE = 0 := by decide
      rw [pcAfter, BitVec.add_assoc, hsum, add_zero]
    calc step s = exec (.jrE8 0xFE) s := step_of_opcode hrun hop (by rw [he8]; rfl)
      _ = .next (setPc s.pc s) := congrArg (fun pc => Host.Outcome.next (setPc pc s)) hback
  case absolute =>
    have htarget : BitVec.ofNat 16 ((memRead s.mem (s.pc + 2)).toNat * 256 + (memRead s.mem (s.pc + 1)).toNat) = s.pc := by
      rw [← hpc, BitVec.ofNat_toNat, BitVec.setWidth_eq]
    calc step s = exec (.jpA16 s.pc) s := step_of_opcode hrun hop (by rw [decode_jpA16, htarget])
      _ = .next (setPc s.pc s) := rfl

/-- INC (HL) on a running core, whatever HL points at: pc past the one byte, and the byte at HL incremented. -/
theorem step_incMem {s : State} (hrun : s.status = .running) (hop : memRead s.mem s.pc = 0x34) :
    ∃ t, step s = .next t ∧ t.pc = s.pc + 1 ∧ t.mem = memWrite s.mem (getHl s) (memRead s.mem (getHl s) + 1) :=
  ⟨_, step_of_opcode hrun hop (i := .incMem) rfl, rfl, rfl⟩

/-- Settles O27: the fetch after a store reads the memory that the store left. -/
theorem storeIntoOwnBytesTakesEffectNextStep : Obligations.StoreIntoOwnBytesTakesEffectNextStep := by
  refine ⟨fun s hrun hop hhl => ?opcode, fun s t i a hrun hfetch hstore hstep => ?any, fun s t hrun hop hhl hstep => ?next⟩
  case opcode =>
    obtain ⟨t, hstep, hpc, hmem⟩ := step_incMem hrun hop
    refine ⟨t, hstep, hpc, fun a => ?_⟩
    rw [hmem, hhl, hop]
    exact memRead_memWrite s.mem s.pc a 0x35
  case any =>
    have hexec : exec i s = .next t := (stepWith_of_decoded hrun hfetch).symm.trans hstep
    have hseen : ∀ b : Word, memRead t.mem b = if b = a then memRead t.mem a else memRead s.mem b := by
      intro b
      split
      · next hb => rw [hb]
      · next hb => exact (effect_of_exec hexec).memRead_of_ne (storeAddress_eq_getHl hstore ▸ hb)
    refine ⟨hexec, ?_⟩
    simp only [← hseen]
    rfl
  case next =>
    obtain ⟨t', hstep', hpc, hmem⟩ := step_incMem hrun hop
    obtain rfl := Host.Outcome.next.inj (hstep.symm.trans hstep')
    have h1 : s.pc + 1 + 1 = s.pc + 2 := BitVec.add_assoc ..
    have h2 : s.pc + 1 + 2 = s.pc + 3 := BitVec.add_assoc ..
    have hne1 : s.pc + 2 ≠ s.pc + 1 := by bv_omega
    have hne2 : s.pc + 3 ≠ s.pc + 1 := by bv_omega
    rw [fetchDecode, hpc, hmem, hhl, h1, h2, memRead_memWrite_same, memRead_memWrite_ne _ hne1, memRead_memWrite_ne _ hne2]
    rfl

end Sys2Proof.Machine
end

section
/-! What an instruction reads of F (10_state.md R39; 45_jump.md R270), and the corner cases of the bit and rotate primitives
(40_alu_primitives.md R131 to R134, R139 to R143). -/

namespace Sys2Proof.Machine

open Sys2Proof.Safety

/-! ## Conditions (45_jump.md R270) -/

/-- Settles O50: each code is its flag or the negation of it; no code names N or H. -/
theorem conditionEvaluation : Obligations.ConditionEvaluation := by
  refine ⟨fun f => ⟨iff_of_eq (Bool.not_eq_true' f.z), Iff.rfl, iff_of_eq (Bool.not_eq_true' f.c), Iff.rfl, rfl⟩, ?_⟩
  intro f n h t
  cases t <;> rfl

/-! ## Two runs that differ in F alone -/

/-- Of each flag: the two runs end with the same value, or both end with the value that they began with. -/
def FlagsPassed (f g f' g' : Flags) : Prop :=
  (g'.z = f'.z ∨ f'.z = f.z ∧ g'.z = g.z) ∧ (g'.n = f'.n ∨ f'.n = f.n ∧ g'.n = g.n) ∧
  (g'.h = f'.h ∨ f'.h = f.h ∧ g'.h = g.h) ∧ (g'.c = f'.c ∨ f'.c = f.c ∧ g'.c = g.c)

theorem flagsPassed_of_same (f g f' : Flags) : FlagsPassed f g f' f' := ⟨.inl rfl, .inl rfl, .inl rfl, .inl rfl⟩

theorem flagsPassed_of_kept (f g : Flags) : FlagsPassed f g f g :=
  ⟨.inr ⟨rfl, rfl⟩, .inr ⟨rfl, rfl⟩, .inr ⟨rfl, rfl⟩, .inr ⟨rfl, rfl⟩⟩

theorem flagsPassed_of_kept_z (f g : Flags) (n h c : Bool) : FlagsPassed f g ⟨f.z, n, h, c⟩ ⟨g.z, n, h, c⟩ :=
  ⟨.inr ⟨rfl, rfl⟩, .inl rfl, .inl rfl, .inl rfl⟩

theorem flagsPassed_of_kept_c (f g : Flags) (z n h : Bool) : FlagsPassed f g ⟨z, n, h, f.c⟩ ⟨z, n, h, g.c⟩ :=
  ⟨.inl rfl, .inl rfl, .inl rfl, .inr ⟨rfl, rfl⟩⟩

/-- A bit test keeps C, and out of range all four flags (R140, R143). -/
theorem aluBitCheck_passed (v b : Byte) (f g : Flags) : FlagsPassed f g (aluBitCheck v b f) (aluBitCheck v b g) := by
  unfold aluBitCheck
  split
  · exact flagsPassed_of_kept_c f g _ _ _
  · exact flagsPassed_of_kept f g

/-! ### Each operation after a write of F -/

@[simp] theorem resolveByte_setFlags (t : ByteTarget) (g : Flags) (s : State) :
    resolveByte t (setFlags g s) = resolveByte t s := by
  cases t with
  | reg r => rw [resolveByte_reg, resolveByte_reg, readReg_setFlags]
  | memHl => rfl
  | imm d8 => rfl

@[simp] theorem resolveWord_setFlags (p : WordTarget) (g : Flags) (s : State) :
    resolveWord p (setFlags g s) = resolveWord p s := by
  cases p <;> rfl

theorem writeByte_setFlags (t : ByteTarget) (v : Byte) (g : Flags) (s : State) :
    writeByte t v (setFlags g s) = setFlags g (writeByte t v s) := by
  cases t with
  | reg r => cases r <;> rfl
  | memHl => rfl
  | imm d8 => rfl

theorem writeWord_setFlags (p : WordTarget) (v : Word) (g : Flags) (s : State) :
    writeWord p v (setFlags g s) = setFlags g (writeWord p v s) := by
  cases p <;> rfl

section AfterSetFlags

variable {g : Flags} {s : State} {t : ByteTarget}

theorem aluOnA_setFlags {op : Byte → Byte → Flags → Byte × Flags} (hop : ∀ l r, op l r g = op l r s.f) :
    aluOnA op t (setFlags g s) = aluOnA op t s := by
  rw [aluOnA_eq, aluOnA_eq, resolveByte_setFlags, setFlags_f, setFlags_a, hop]
  rfl

theorem compareOnA_setFlags : compareOnA t (setFlags g s) = compareOnA t s := by
  rw [compareOnA_eq, compareOnA_eq, resolveByte_setFlags]
  rfl

theorem modifyByte_setFlags {op : Byte → Flags → Byte × Flags} {n : Nat} (hres : ∀ v, (op v g).1 = (op v s.f).1) :
    modifyByte op t n (setFlags g s) = setFlags (op (resolveByte t s).1 g).2 (modifyByte op t n s) := by
  rw [modifyByte_eq, modifyByte_eq, resolveByte_setFlags, setFlags_f, hres, writeByte_setFlags]
  rfl

theorem testBit_setFlags {b : Byte} :
    testBit b t (setFlags g s) = setFlags (aluBitCheck (resolveByte t s).1 b g) (testBit b t s) := by
  rw [testBit_eq, testBit_eq, resolveByte_setFlags]
  rfl

theorem changeBit_setFlags {op : Byte → Byte → Byte} {b : Byte} :
    changeBit op b t (setFlags g s) = setFlags g (changeBit op b t s) := by
  rw [changeBit_eq, changeBit_eq, resolveByte_setFlags, writeByte_setFlags]
  rfl

end AfterSetFlags

/-- Flags that agree on those that a condition names evaluate it alike. -/
theorem evaluateCondition_congr {f g : Flags} {t : Cond} (hc : decide (t = .carry ∨ t = .notCarry) = true → g.c = f.c)
    (hz : decide (t = .zero ∨ t = .notZero) = true → g.z = f.z) : evaluateCondition g t = evaluateCondition f t := by
  cases t with
  | notZero => exact congrArg (!·) (hz rfl)
  | zero => exact hz rfl
  | notCarry => exact congrArg (!·) (hc rfl)
  | carry => exact hc rfl
  | always => rfl

/-- R39: two runs of an instruction whose flags agree on those that it reads end in states that differ in F alone, and there
only in flags that the instruction passes through. -/
theorem exec_setFlags {i : Instr} {s : State} {g : Flags} (hc : readsCarry i = true → g.c = s.f.c)
    (hz : readsZero i = true → g.z = s.f.z) :
    ∃ t g', exec i s = .next t ∧ exec i (setFlags g s) = .next (setFlags g' t) ∧ FlagsPassed s.f g t.f g' := by
  cases i with
  | addAR | addAMem | addAD8 | adcAR | adcAMem | adcAD8 | subAR | subAMem | subAD8 | sbcAR | sbcAMem | sbcAD8
  | andAR | andAMem | andAD8 | xorAR | xorAMem | xorAD8 | orAR | orAMem | orAD8 =>
    exact ⟨_, _, rfl, congrArg Host.Outcome.next (aluOnA_setFlags fun _ _ => rfl), flagsPassed_of_same _ _ _⟩
  | cpAR | cpAMem | cpAD8 => exact ⟨_, _, rfl, congrArg Host.Outcome.next compareOnA_setFlags, flagsPassed_of_same _ _ _⟩
  | incR | incMem | decR | decMem | cpl =>
    exact ⟨_, _, rfl, congrArg Host.Outcome.next (modifyByte_setFlags fun _ => rfl), flagsPassed_of_kept_c _ _ _ _ _⟩
  | rlca | rlcR | rlcMem =>
    exact ⟨_, _, rfl, congrArg Host.Outcome.next (modifyByte_setFlags fun _ => rfl), flagsPassed_of_kept_z _ _ _ _ _⟩
  | rrca | rrcR | rrcMem | slaR | slaMem | sraR | sraMem | swapR | swapMem | srlR | srlMem =>
    exact ⟨_, _, rfl, congrArg Host.Outcome.next (modifyByte_setFlags fun _ => rfl), flagsPassed_of_same _ _ _⟩
  | rla | rlR | rlMem =>
    have hres (v : Byte) : (aluRotateLeftThroughCarry v g).1 = (aluRotateLeftThroughCarry v s.f).1 := by
      rw [aluRotateLeftThroughCarry_eq, aluRotateLeftThroughCarry_eq, hc rfl]
    exact ⟨_, _, rfl, congrArg Host.Outcome.next (modifyByte_setFlags hres), flagsPassed_of_kept_z _ _ _ _ _⟩
  | rra | rrR | rrMem =>
    have hres (v : Byte) : (aluRotateRightThroughCarry v g).1 = (aluRotateRightThroughCarry v s.f).1 := by
      rw [aluRotateRightThroughCarry_eq, aluRotateRightThroughCarry_eq, hc rfl]
    exact ⟨_, _, rfl, congrArg Host.Outcome.next (modifyByte_setFlags hres), flagsPassed_of_same _ _ _⟩
  | bitBR | bitBMem => exact ⟨_, _, rfl, congrArg Host.Outcome.next testBit_setFlags, aluBitCheck_passed _ _ _ _⟩
  | resBR b r | setBR b r =>
    refine ⟨_, _, rfl, congrArg Host.Outcome.next changeBit_setFlags, ?_⟩
    rw [changeBit_eq, writeByte_f]
    exact flagsPassed_of_kept _ _
  | resBMem | setBMem => exact ⟨_, _, rfl, congrArg Host.Outcome.next changeBit_setFlags, flagsPassed_of_kept _ _⟩
  | ccf =>
    refine ⟨_, flagsCcf g, rfl, rfl, ?_⟩
    have hcarry : flagsCcf g = ⟨g.z, false, false, !s.f.c⟩ := by rw [← hc rfl]; rfl
    rw [hcarry]
    exact flagsPassed_of_kept_z _ _ _ _ _
  | scf => exact ⟨_, flagsScf g, rfl, rfl, flagsPassed_of_kept_z _ _ _ _ _⟩
  | addHlRr p =>
    refine ⟨_, _, rfl, ?_, flagsPassed_of_same _ _ _⟩
    rw [exec_addHlRr, resolveWord_setFlags]
    rfl
  | addSpE8 => exact ⟨_, _, rfl, rfl, flagsPassed_of_same _ _ _⟩
  | incRr p | decRr p =>
    refine ⟨_, g, rfl, ?_, ?_⟩
    · simp only [exec, execIncRr, execDecRr, resolveWord_setFlags, writeWord_setFlags]
      rfl
    · rw [setPc_f, writeWord_f]
      exact flagsPassed_of_kept _ _
  | jpA16 | jrE8 | jpHl => exact ⟨_, g, rfl, rfl, flagsPassed_of_kept _ _⟩
  | jpCcA16 cc a16 =>
    refine ⟨_, g, rfl, ?_, flagsPassed_of_kept _ _⟩
    simp only [exec, execJpCcA16, jumpTarget, setFlags_f, evaluateCondition_congr hc hz]
    rfl
  | jrCcE8 cc e8 =>
    refine ⟨_, g, rfl, ?_, flagsPassed_of_kept _ _⟩
    simp only [exec, execJrCcE8, jumpRelativeTarget, setFlags_f, evaluateCondition_congr hc hz]
    rfl

/-- A flag that both runs begin with is one that they end with. -/
theorem eq_of_passed {f g f' g' : Bool} (hpassed : g' = f' ∨ f' = f ∧ g' = g) (hsame : g = f) : g' = f' := by
  obtain heq | ⟨hf, hg⟩ := hpassed
  · exact heq
  · rw [hf, hg, hsame]

/-- Settles O59: the changed flag is passed through, and the others, which both runs begin with, end alike. -/
theorem flagReaders : Obligations.FlagReaders := by
  intro i s
  refine ⟨fun n h => ?subtractHalfCarry, fun hreads c => ?carry, fun hreads z => ?zero⟩
  case subtractHalfCarry =>
    obtain ⟨t, g', hexec, hexec', hz, hn, hh, hc⟩ :=
      exec_setFlags (i := i) (s := s) (g := { s.f with n := n, h := h }) (fun _ => rfl) (fun _ => rfl)
    have hsame : { g' with n := t.f.n, h := t.f.h } = t.f := by simp only [eq_of_passed hz rfl, eq_of_passed hc rfl]
    exact ⟨t, _, hexec, hexec', congrArg (setFlags · t) hsame, hn, hh⟩
  case carry =>
    obtain ⟨t, g', hexec, hexec', hz, hn, hh, hc⟩ :=
      exec_setFlags (i := i) (s := s) (g := { s.f with c := c })
        (fun hyes => absurd hyes (Bool.eq_false_iff.mp hreads)) (fun _ => rfl)
    have hsame : { g' with c := t.f.c } = t.f := by
      simp only [eq_of_passed hz rfl, eq_of_passed hn rfl, eq_of_passed hh rfl]
    exact ⟨t, _, hexec, hexec', congrArg (setFlags · t) hsame, hc⟩
  case zero =>
    obtain ⟨t, g', hexec, hexec', hz, hn, hh, hc⟩ :=
      exec_setFlags (i := i) (s := s) (g := { s.f with z := z })
        (fun _ => rfl) (fun hyes => absurd hyes (Bool.eq_false_iff.mp hreads))
    have hsame : { g' with z := t.f.z } = t.f := by
      simp only [eq_of_passed hn rfl, eq_of_passed hh rfl, eq_of_passed hc rfl]
    exact ⟨t, _, hexec, hexec', congrArg (setFlags · t) hsame, hz⟩

/-! ## A bit index out of range (40_alu_primitives.md R139, R143) -/

theorem isSome_buildBitIndex_iff (idx : Byte) : (buildBitIndex idx).isSome = true ↔ idx.toNat ≤ 7 := by
  obtain hle | hgt := le_or_gt idx.toNat 7
  · simp [buildBitIndex_of_le hle, hle]
  · simp [buildBitIndex_of_gt hgt, hgt]

section OutOfRange

variable {b : Byte} (hb : 7 < b.toNat)
include hb

theorem aluBitCheck_of_gt (v : Byte) (f : Flags) : aluBitCheck v b f = f := by
  rw [aluBitCheck, buildBitIndex_of_gt hb]

theorem aluBitSet_of_gt (v : Byte) : aluBitSet v b = v := by
  rw [aluBitSet, buildBitIndex_of_gt hb]

theorem aluBitReset_of_gt (v : Byte) : aluBitReset v b = v := by
  rw [aluBitReset, buildBitIndex_of_gt hb]

theorem testBit_of_gt (t : ByteTarget) (s : State) : testBit b t s = { s with pc := s.pc + 2 } := by
  rw [testBit_eq, aluBitCheck_of_gt hb]

end OutOfRange

theorem writeReg_readReg (r : Reg8) (s : State) : writeReg r (readReg r s) s = s := by cases r <;> rfl

/-- A bit change that leaves the value of a register as it is writes pc alone. -/
theorem changeBit_reg_of_id {op : Byte → Byte → Byte} {b : Byte} (hop : ∀ v, op v b = v) (r : Reg8) (s : State) :
    changeBit op b (.reg r) s = { s with pc := s.pc + 2 } := by
  rw [changeBit_eq, hop, resolveByte_reg, writeByte_reg, writeReg_readReg]

/-- A bit change that leaves the byte at HL as it is stores that byte again. -/
theorem changeBit_memHl_of_id {op : Byte → Byte → Byte} {b : Byte} (hop : ∀ v, op v b = v) (s : State) :
    changeBit op b .memHl s = { s with mem := memWrite s.mem (getHl s) (memRead s.mem (getHl s)), pc := s.pc + 2 } := by
  rw [changeBit_eq, hop]
  rfl

/-- Storing the byte that an address holds changes no read. -/
theorem memRead_memWrite_memRead (m : Memory) (a b : Word) : memRead (memWrite m a (memRead m a)) b = memRead m b := by
  rw [memRead_memWrite]
  split
  · next hb => rw [hb]
  · rfl

/-- Settles O49: out of range the primitives are the identity, so the forms write back what they read; decoding yields a
well-formed index. -/
theorem bitIndexOutOfRangeDoesNothing : Obligations.BitIndexOutOfRangeDoesNothing := by
  refine ⟨isSome_buildBitIndex_iff, ?primitives, fun b r s hb => ?forms, fun b s hb => ?store, ?decoded⟩
  case primitives => exact fun _ v f hb => ⟨aluBitCheck_of_gt hb v f, aluBitSet_of_gt hb v, aluBitReset_of_gt hb v⟩
  case forms =>
    exact ⟨congrArg _ (testBit_of_gt hb _ s), congrArg _ (testBit_of_gt hb _ s),
      congrArg _ (changeBit_reg_of_id (aluBitReset_of_gt hb) r s), congrArg _ (changeBit_reg_of_id (aluBitSet_of_gt hb) r s)⟩
  case store =>
    exact ⟨_, congrArg Host.Outcome.next (changeBit_memHl_of_id (aluBitReset_of_gt hb) s),
      congrArg Host.Outcome.next (changeBit_memHl_of_id (aluBitSet_of_gt hb) s), rfl, memRead_memWrite_memRead s.mem (getHl s)⟩
  case decoded =>
    intro b0 b1 b2 i hdec
    obtain ⟨hwf, -⟩ := encodeWords_of_decode hdec
    exact hwf

/-! ## Rotating left and then right through carry (90_conflicts.md C2) -/

/-- The carry that the left rotate put in at bit 0 comes back out at bit 7. -/
theorem rotateRight_rotateLeft_or (v : Byte) (c : Bool) :
    (v.rotateLeft 1 ||| (if c then 0x01 else 0)).rotateRight 1 = v ||| (if c then 0x80 else 0) := by
  revert v c
  decide

theorem or_signBit_eq_self_iff (v : Byte) : v ||| 0x80 = v ↔ v.getLsbD 7 = true := by
  revert v
  decide

/-- A carry ORed in at bit 7 changes nothing where it is a carry ORed in before or bit 7 itself. -/
theorem or_carry_or_carry {v : Byte} {c d : Bool} (hd : d = c ∨ d = v.getLsbD 7) :
    v ||| (if c then 0x80 else 0) ||| (if d then 0x80 else 0) = v ||| (if c then 0x80 else 0) := by
  obtain rfl | rfl := hd
  · rw [BitVec.or_assoc, BitVec.or_self]
  · by_cases hbit : v.getLsbD 7 = true
    · rw [if_pos hbit, BitVec.or_assoc, BitVec.or_comm _ 0x80, ← BitVec.or_assoc, (or_signBit_eq_self_iff v).mpr hbit]
    · rw [if_neg hbit]; exact BitVec.or_zero

theorem or_carry_eq_self_iff (v : Byte) (c : Bool) : v ||| (if c then 0x80 else 0) = v ↔ c = false ∨ v.getLsbD 7 = true := by
  cases c with
  | false => simp
  | true => simpa using or_signBit_eq_self_iff v

/-- Settles O60: the second rotate ORs its carry in at bit 7, where the original carry or bit 7 of the value already is. -/
theorem throughCarryRoundTrip : Obligations.ThroughCarryRoundTrip := by
  intro v f g hg
  have hcarry : g.c = f.c ∨ g.c = v.getLsbD 7 := hg.imp_right fun h => by rw [h, aluRotateLeftThroughCarry_eq]
  have hw : (aluRotateRightThroughCarry (aluRotateLeftThroughCarry v f).1 g).1 = v ||| (if f.c then 0x80 else 0) := by
    rw [aluRotateLeftThroughCarry_eq, aluRotateRightThroughCarry_eq, rotateRight_rotateLeft_or, or_carry_or_carry hcarry]
  refine ⟨hw, ?_⟩
  rw [hw]
  exact or_carry_eq_self_iff v f.c

end Sys2Proof.Machine
end
